-- ==== Sys2Proof/Word.lean ====
section
/-! DEFINITION. The word types of OPCCODEC and the two message selectors (00_scope.md R10, R11; 30_encoding.md R95). -/

namespace Sys2Proof

/-- A byte of a stream, of RXBUF or of TXMEM, and the 8-bit wire fields (R10). -/
abbrev Byte := BitVec 8

/-- A 16-bit field: the wire length and the packed system id (R10). -/
abbrev Half := BitVec 16

/-- A CSR, a CMD word or a header word: 32 bits (R10, R92). -/
abbrev Word := BitVec 32

/-- The message a query acts on, bit SEL of the CMD word (R95). -/
inductive Sel where
  /-- SEL = 0: the message the TX registers describe. -/
  | tx
  /-- SEL = 1: the delivered message. -/
  | rx
  deriving DecidableEq, Repr

end Sys2Proof
end

