-- ==== Sys2Proof/Config.lean ====
section
/-! DEFINITION. The constants of 00_scope.md R7 and the open parameters of a configuration (R8, R9; 20_memory.md R67). -/

namespace Sys2Proof

/-- HDR_LEN: the header bytes of a frame (R7). -/
@[simp] abbrev hdrLen : Nat := 4

/-- MAX_LEN: the largest payload length the 16-bit length field holds (R7). -/
@[simp] abbrev maxLen : Nat := 65535

/-- TAG_SPC: the command tag of SetPixelColors (R7). -/
@[simp] abbrev tagSpc : Byte := 0x00#8

/-- TAG_SYSEX: the command tag of SystemExclusive (R7). -/
@[simp] abbrev tagSysex : Byte := 0xFF#8

/-- PIXEL_BYTES: the bytes of one RGB pixel (R7). -/
@[simp] abbrev pixelBytes : Nat := 3

/-- SYSID_BYTES: the bytes of the system id (R7). -/
@[simp] abbrev sysidBytes : Nat := 2

/-- DEFAULT_PORT, which only the register DEFPORT shows (R5, R7, R28). -/
@[simp] abbrev defaultPort : Word := 0x00001ED2#32

/-- The constant the register ID holds (R27). -/
@[simp] abbrev idValue : Word := 0x4F504331#32

/-- What a platform fixes and no step changes. The model takes these as arguments: they stand in State, so that a
statement about every state is a statement about every configuration. -/
structure Config where
  /-- BUF_CAP, the capacity of RXBUF in bytes (R8, R29). -/
  bufCap : Nat
  /-- TXMEM_SIZE, the bytes of host transmit memory (R9, R48). -/
  txmemSize : Nat
  /-- CSR_BASE, the bus address of CSR offset 0 (R67). -/
  csrBase : Nat
  /-- How many host agents drive the CSR port: 1 in the spec (R75, R231), more is refused (R235), 0 is log entry 22. -/
  hosts : Nat
  deriving DecidableEq, Repr

/-- BUF_CAP at the spec's default (R8), one host (R231); TXMEM_SIZE and CSR_BASE are open in the spec.
DESIGN CHOICE (log entry 2): 65536, the size 95_test_vectors.md works with, and base 0. -/
def Config.standard : Config :=
  { bufCap := 65539, txmemSize := 65536, csrBase := 0, hosts := 1 }

end Sys2Proof
end

