-- ==== Sys2Proof/Syntax.lean ====
section
/-! DEFINITION. The instructions of OPCCODEC: one constructor per row of spec/opcode_table.json (30_encoding.md R92, R97). -/

namespace Sys2Proof

/-- The nine commands a CMD word can issue and the two frames a wire header can open.
An index or a length is a count, so it is a Nat; WellFormed bounds it by its field's width. -/
inductive Instr where
  /-- RECV: one receive attempt (42_decoder.md R180). -/
  | recv
  /-- DONE: release the delivered message and consume its frame (R190). -/
  | done
  /-- SKIP: discard the failed frame at the front (R195). -/
  | skip
  /-- RDPIX: read pixel `idx` of the delivered message (R200). -/
  | rdpix (idx : Nat)
  /-- RDDATA: read data byte `idx` of the delivered message (R202). -/
  | rddata (idx : Nat)
  /-- SEND: encode the TX message and write it to the sink (41_encoder.md R146). -/
  | send
  /-- LENGTH: the serialized payload length of the selected message (40_message_model.md R125). -/
  | length (sel : Sel)
  /-- ISVALID: is the selected message valid (R127)? -/
  | isvalid (sel : Sel)
  /-- ISBCAST: is the selected message's channel 0 (R129)? -/
  | isbcast (sel : Sel)
  /-- FRAME.SetPixelColors: a wire frame with tag 0x00, `len` payload bytes (R92, R182). -/
  | frameSetPixelColors (chan : Byte) (len : Nat)
  /-- FRAME.SystemExclusive: a wire frame with tag 0xFF, `len` payload bytes (R92, R183). -/
  | frameSystemExclusive (chan : Byte) (len : Nat)
  deriving DecidableEq, Repr

end Sys2Proof
end

