-- ==== Sys2Proof/WellFormed.lean ====
section
/-! DEFINITION. Which instructions an encoding can hold: every count fits its field (30_encoding.md R90, R95, R96). -/

namespace Sys2Proof

/-- IDX and the wire length are 16-bit fields (R90, R95); every other operand's type is its field's. A SystemExclusive
frame with fewer than 2 payload bytes is well-formed: it is a frame the decoder reads, and reports MALFORMED. -/
def wellFormed : Instr → Bool
  | .rdpix idx => decide (idx < 65536)
  | .rddata idx => decide (idx < 65536)
  | .frameSetPixelColors _ len => decide (len < 65536)
  | .frameSystemExclusive _ len => decide (len < 65536)
  | .recv => true
  | .done => true
  | .skip => true
  | .send => true
  | .length _ => true
  | .isvalid _ => true
  | .isbcast _ => true

/-- `wellFormed` as a proposition. -/
abbrev WellFormed (i : Instr) : Prop := wellFormed i = true

end Sys2Proof
end

