-- ==== Sys2Proof/Decode.lean ====
section
/-! DEFINITION. The two decoders, of a CMD word (30_encoding.md R95-R99) and of a frame header (R90-R94, R100), the encoder, and the rows of spec/opcode_table.json. -/

namespace Sys2Proof

/-- Where a 32-bit encoding stands: written to CMD, or at the front of the input stream. One word may mean an
instruction in each. -/
inductive Space where
  | cmd
  | frame
  deriving DecidableEq, Repr

/-- Why an encoding is refused. -/
inductive Illegal where
  /-- A CMD word whose OPC is not in the opcode map (R99). -/
  | opcode
  /-- A CMD word with a field that must be 0 and is not (R99). -/
  | mustBeZero
  /-- A header whose tag is neither 0x00 nor 0xFF (R100). -/
  | unknownTag
  /-- Fewer than 4 bytes, so no header (R94). -/
  | shortHeader
  deriving DecidableEq, Repr

/-! ## The CMD word -/

/-- OPC, CMD[7:0] (R95). -/
def cmdOpc (w : Word) : Byte := w.extractLsb' 0 8

/-- SEL, CMD[8] (R95). -/
def cmdSel (w : Word) : Sel := if w.getLsbD 8 then .rx else .tx

/-- IDX, CMD[31:16], zero-extended (R95, R96). -/
def cmdIdx (w : Word) : Nat := (w.extractLsb' 16 16).toNat

/-- `i` unless a bit of `w` under `mask` is set: the column "fields that must be 0" of R97. -/
def mustBeZero (mask w : Word) (i : Instr) : Except Illegal Instr :=
  if w &&& mask = 0#32 then .ok i else .error .mustBeZero

/-- The opcode map of R97; every other OPC is illegal (R99). -/
def decodeCmd (w : Word) : Except Illegal Instr :=
  if cmdOpc w = 0x01#8 then mustBeZero 0xFFFFFF00#32 w .recv
  else if cmdOpc w = 0x02#8 then mustBeZero 0xFFFFFF00#32 w .done
  else if cmdOpc w = 0x03#8 then mustBeZero 0xFFFFFF00#32 w .skip
  else if cmdOpc w = 0x04#8 then mustBeZero 0x0000FF00#32 w (.rdpix (cmdIdx w))
  else if cmdOpc w = 0x05#8 then mustBeZero 0x0000FF00#32 w (.rddata (cmdIdx w))
  else if cmdOpc w = 0x08#8 then mustBeZero 0xFFFFFF00#32 w .send
  else if cmdOpc w = 0x09#8 then mustBeZero 0xFFFFFE00#32 w (.length (cmdSel w))
  else if cmdOpc w = 0x0A#8 then mustBeZero 0xFFFFFE00#32 w (.isvalid (cmdSel w))
  else if cmdOpc w = 0x0B#8 then mustBeZero 0xFFFFFE00#32 w (.isbcast (cmdSel w))
  else .error .opcode

/-! ## The frame header -/

/-- The byte `v[15:8]` of a 16-bit field, the one that is first on the wire (R60, R61). -/
def hiByte (v : Half) : Byte := v.extractLsb' 8 8

/-- The byte `v[7:0]` of a 16-bit field (R60, R61). -/
def loByte (v : Half) : Byte := v.extractLsb' 0 8

/-- Channel, `hdr[31:24]` (R92). -/
def hdrChan (h : Word) : Byte := h.extractLsb' 24 8

/-- Command tag, `hdr[23:16]` (R92). -/
def hdrTag (h : Word) : Byte := h.extractLsb' 16 8

/-- Length, `hdr[15:0]`: the payload bytes that follow the header (R92). -/
def hdrPayload (h : Word) : Nat := (h.extractLsb' 0 16).toNat

/-- `frame_len`: the bytes of the whole frame, known from its header alone (R94). -/
def frameLen (h : Word) : Nat := hdrLen + hdrPayload h

/-- The header word `(byte0, byte1, byte2, byte3)`, first byte most significant (R92). -/
def headerWord (b0 b1 b2 b3 : Byte) : Word := b0 ++ b1 ++ b2 ++ b3

/-- The header word of a frame with this channel, tag and length (R90). -/
def mkHeader (chan tag : Byte) (len : Nat) : Word := chan ++ tag ++ BitVec.ofNat 16 len

/-- The 4 header bytes in wire order (R90). -/
def headerBytes (h : Word) : List Byte :=
  [h.extractLsb' 24 8, h.extractLsb' 16 8, h.extractLsb' 8 8, h.extractLsb' 0 8]

/-- The header word at the front of a byte stream, once 4 bytes are there (R94). -/
def headerOf : List Byte → Option Word
  | b0 :: b1 :: b2 :: b3 :: _ => some (headerWord b0 b1 b2 b3)
  | _ => none

/-- A frame is selected by its command tag alone (R92, R100). -/
def decodeFrame (h : Word) : Except Illegal Instr :=
  if hdrTag h = tagSpc then .ok (.frameSetPixelColors (hdrChan h) (hdrPayload h))
  else if hdrTag h = tagSysex then .ok (.frameSystemExclusive (hdrChan h) (hdrPayload h))
  else .error .unknownTag

/-- The frame at the front of any bytes. -/
def decodeFrameBytes (bs : List Byte) : Except Illegal Instr :=
  match headerOf bs with
  | some h => decodeFrame h
  | none => .error .shortHeader

/-- The decoder of each space. -/
def decode : Space → Word → Except Illegal Instr
  | .cmd, w => decodeCmd w
  | .frame, w => decodeFrame w

/-! ## The encoder -/

/-- Bit SEL of a query's word (R95). -/
def selBit : Sel → Word
  | .tx => 0x00000000#32
  | .rx => 0x00000100#32

/-- The words of R98 and the header words of R90. -/
def encode : Instr → Word
  | .recv => 0x00000001#32
  | .done => 0x00000002#32
  | .skip => 0x00000003#32
  | .rdpix idx => BitVec.ofNat 16 idx ++ 0x0004#16
  | .rddata idx => BitVec.ofNat 16 idx ++ 0x0005#16
  | .send => 0x00000008#32
  | .length sel => selBit sel ||| 0x00000009#32
  | .isvalid sel => selBit sel ||| 0x0000000A#32
  | .isbcast sel => selBit sel ||| 0x0000000B#32
  | .frameSetPixelColors chan len => mkHeader chan tagSpc len
  | .frameSystemExclusive chan len => mkHeader chan tagSysex len

/-- Where an instruction's word stands. -/
def Instr.space : Instr → Space
  | .recv => .cmd
  | .done => .cmd
  | .skip => .cmd
  | .rdpix _ => .cmd
  | .rddata _ => .cmd
  | .send => .cmd
  | .length _ => .cmd
  | .isvalid _ => .cmd
  | .isbcast _ => .cmd
  | .frameSetPixelColors _ _ => .frame
  | .frameSystemExclusive _ _ => .frame

/-! ## The opcode table -/

/-- A row of spec/opcode_table.json: a word is the row's iff `word &&& mask = pattern` (R98). -/
structure OpcodeRow where
  pattern : Word
  mask : Word
  deriving DecidableEq, Repr

/-- The nine rows of format CMD32, in the table's order. -/
def cmdRows : List OpcodeRow :=
  [⟨0x00000001#32, 0xFFFFFFFF#32⟩, ⟨0x00000002#32, 0xFFFFFFFF#32⟩, ⟨0x00000003#32, 0xFFFFFFFF#32⟩,
   ⟨0x00000004#32, 0x0000FFFF#32⟩, ⟨0x00000005#32, 0x0000FFFF#32⟩, ⟨0x00000008#32, 0xFFFFFFFF#32⟩,
   ⟨0x00000009#32, 0xFFFFFEFF#32⟩, ⟨0x0000000A#32, 0xFFFFFEFF#32⟩, ⟨0x0000000B#32, 0xFFFFFEFF#32⟩]

/-- The two rows of format FRAME_HDR32. -/
def frameRows : List OpcodeRow :=
  [⟨0x00000000#32, 0x00FF0000#32⟩, ⟨0x00FF0000#32, 0x00FF0000#32⟩]

/-- The row of the table an instruction stands for. -/
def Instr.row : Instr → OpcodeRow
  | .recv => ⟨0x00000001#32, 0xFFFFFFFF#32⟩
  | .done => ⟨0x00000002#32, 0xFFFFFFFF#32⟩
  | .skip => ⟨0x00000003#32, 0xFFFFFFFF#32⟩
  | .rdpix _ => ⟨0x00000004#32, 0x0000FFFF#32⟩
  | .rddata _ => ⟨0x00000005#32, 0x0000FFFF#32⟩
  | .send => ⟨0x00000008#32, 0xFFFFFFFF#32⟩
  | .length _ => ⟨0x00000009#32, 0xFFFFFEFF#32⟩
  | .isvalid _ => ⟨0x0000000A#32, 0xFFFFFEFF#32⟩
  | .isbcast _ => ⟨0x0000000B#32, 0xFFFFFEFF#32⟩
  | .frameSetPixelColors _ _ => ⟨0x00000000#32, 0x00FF0000#32⟩
  | .frameSystemExclusive _ _ => ⟨0x00FF0000#32, 0x00FF0000#32⟩

/-- The table numbers the words of both spaces alike. A word that is a legal command is read as one, every other word
as a header whose 4 bytes are laid out in wire order. DESIGN CHOICE (log entry 4): safe, for the host's probe alone;
the machine reads a CMD word and a header with their own decoders. -/
def decodeWord (w : Word) : Except Illegal Instr :=
  match decodeCmd w with
  | .ok i => .ok i
  | .error _ => decodeFrameBytes (headerBytes w)

/-- The instruction whose bits, numbered as the table numbers them, are `w`; every encoding has 32 bits (R102), so bits
above a shorter row are 0 and a longer row has no instruction. -/
def decodeTableWord (nbits w : Nat) : Option Instr :=
  if 32 < nbits then none
  else
    match decodeWord (BitVec.ofNat 32 (w % 2 ^ nbits)) with
    | .ok i => some i
    | .error _ => none

end Sys2Proof
end

