-- ==== Sys2Proof/Machine/State.lean ====
section
/-! DEFINITION. State as plain data: the block of 10_state.md R22, host memory, the configuration, the agents around the block; its reset value; why a step can stop. -/

namespace Sys2Proof.Machine

/-- The values STATUS.CODE takes; no other value occurs (60_exceptions.md R220). -/
inductive Code where
  /-- 0x00: a command other than RECV is done; also the reset value. -/
  | ok
  /-- 0x01: RECV parsed a valid frame and presents it. -/
  | delivered
  /-- 0x02: RECV found fewer than 4 bytes. -/
  | incompleteHeader
  /-- 0x03: RECV found a header and fewer than `4 + len` bytes. -/
  | incompletePayload
  /-- 0x10: RECV reports an input error, or a sink transaction of SEND answered `fail`. -/
  | ioFailure
  /-- 0x11: RECV found tag 0xFF with `len < 2`. -/
  | malformed
  /-- 0x12: RECV found a tag that is neither 0x00 nor 0xFF. -/
  | unrecognized
  /-- 0x13: SEND of a message longer than 65535. -/
  | oversized
  /-- 0x20: the CMD word is not legal. -/
  | illegalCmd
  /-- 0x21: the command is not allowed in this DSTATE. -/
  | badState
  /-- 0x22: an index beyond the delivered message. -/
  | badIndex
  /-- 0x23: SEND of a payload range beyond TXMEM. -/
  | badAddr
  deriving DecidableEq, Repr

/-- The decoder state; the encoding 3 never occurs (R31, R33). -/
inductive DState where
  /-- No frame is held. -/
  | idle
  /-- A parsed message is presented and its bytes stay at the front of RXBUF. -/
  | delivering
  /-- The frame at the front was reported MALFORMED or UNRECOGNIZED. -/
  | errHeld
  deriving DecidableEq, Repr

/-- The encoder phase: which sink transaction of a SEND is outstanding (R49, 41_encoder.md R146). -/
inductive EPhase where
  | idle
  | w1
  | w2
  | w3
  | w4
  | flush
  deriving DecidableEq, Repr

/-- A step the host can take (00_scope.md R6, 30_encoding.md R103). -/
inductive HostMove where
  /-- A CSR write of `bits` bits at bus address `addr`. -/
  | write (bits addr : Nat) (value : Word)
  /-- A CSR read of `bits` bits at bus address `addr`. -/
  | read (bits addr : Nat)
  /-- The host writes `bytes` to TXMEM from `addr` upward. -/
  | txw (addr : Nat) (bytes : List Byte)
  deriving DecidableEq, Repr

/-- An event of the input source (42_decoder.md R170). -/
inductive SourceMove where
  /-- One byte of the stream. -/
  | push (b : Byte)
  /-- Reading the underlying source failed. -/
  | error
  deriving DecidableEq, Repr

/-- The sink's answer to a transaction, a free draw (41_encoder.md R141, R142). -/
inductive SinkAnswer where
  | ok
  /-- A write that answers `fail` keeps its first `kept` bytes. -/
  | fail (kept : Nat)
  deriving DecidableEq, Repr

/-- A transaction on the sink port (R140). -/
inductive SinkTxn where
  | write (bytes : List Byte)
  | flush
  deriving DecidableEq, Repr

/-- How a transaction ended. -/
inductive SinkReply where
  | ok
  | fail (kept : Nat)
  /-- Reset abandoned it; the sink kept its first `kept` bytes (70_reset_and_hazards.md R250). -/
  | abandoned (kept : Nat)
  deriving DecidableEq, Repr

/-- One entry of the sink log: a transaction issued, with its answer (R142). -/
structure SinkEntry where
  txn : SinkTxn
  reply : SinkReply
  deriving DecidableEq, Repr

/-- Which agent takes the next step (R6, 60_exceptions.md R229). The encoder engine steps with the sink's answer
(41_encoder.md R147; DEDUCED, log entry 5). -/
inductive Turn where
  | host
  | source
  | sink
  /-- Reset; of a write then outstanding the sink keeps the first `kept` bytes (R250). -/
  | reset (kept : Nat)
  deriving DecidableEq, Repr

/-- Byte memory: the written bytes with their addresses, strictly rising; an address not listed is unwritten (R48). -/
abbrev Memory := List Host.Cell

/-- Why the machine stops: the model faults of 60_exceptions.md R233 and one of the model's own. -/
inductive Fault where
  /-- BUS_ERROR, raised by a host CSR access that 20_memory.md R62 does not admit. Safe: the chip changes nothing. -/
  | busError
  /-- UNINIT_TXMEM, raised by SEND where it reads a TXMEM byte nothing has written (R146). Safe: no value is picked. -/
  | uninitTxmem
  /-- INVARIANT, raised by a command that would read or consume a byte beyond RXCNT. Safe: no step from a state that
  meets 10_state.md R50 and the register rules R39 to R41 raises it. -/
  | invariant
  /-- Raised by a host write to TXMEM at an address that R48 says does not exist. DESIGN CHOICE (log entry 7), safe. -/
  | txmemRange
  deriving DecidableEq, Repr

/-- Why a step has no meaning. -/
inductive Refusal where
  /-- Raised by an arm of `exec` for an instruction without a meaning; no arm does. Safe. -/
  | notModelled (mnemonic : String)
  /-- Raised by `step` when BUF_CAP < 65539 (00_scope.md R8, 60_exceptions.md R235). Safe. -/
  | bufCapTooSmall
  /-- Raised by `step` when more than one host agent drives the port (R75, R235). Safe. -/
  | severalHosts
  /-- Raised by `step` when BUF_CAP or TXMEM_SIZE is beyond R29's or R9's bound. DESIGN CHOICE (log entry 10), safe. -/
  | parameterRange
  deriving DecidableEq, Repr

/-- The machine. Registers stand at their fields' widths; STATUS, RX_COUNT and the constant registers are computed when
they are read (R26 to R31, R37). -/
structure State where
  /-- The configuration; no step changes it. -/
  cfg : Config
  /-- STATUS.CODE (R31, R32). -/
  code : Code
  /-- STATUS.DSTATE (R33). -/
  dstate : DState
  /-- STATUS.INERR (R35). -/
  inErr : Bool
  /-- RESULT (R36). -/
  result : Word
  /-- RX_HDR (R38). -/
  rxHdr : Word
  /-- RX_PIXCNT[15:0] (R39). -/
  rxPixcnt : Half
  /-- RX_SYSID[15:0] (R40). -/
  rxSysid : Half
  /-- RX_DLEN[15:0] (R41). -/
  rxDlen : Half
  /-- TX_CHAN[7:0] (R42). -/
  txChan : Byte
  /-- TX_KIND[0] (R43). -/
  txKind : BitVec 1
  /-- TX_COUNT[23:0] (R44). -/
  txCount : BitVec 24
  /-- TX_SYSID[15:0] (R45). -/
  txSysid : Half
  /-- TX_BASE (R46). -/
  txBase : Word
  /-- RXBUF, oldest byte first; its length is RXCNT (R47). -/
  rxbuf : List Byte
  /-- EPHASE (R49). -/
  ephase : EPhase
  /-- TXMEM (R48). -/
  txmem : Memory
  /-- The sink log, oldest entry first (R142). -/
  sinkLog : List SinkEntry
  /-- The host's coming moves. -/
  host : List HostMove
  /-- The source's coming events. -/
  source : List SourceMove
  /-- The sink's coming answers. -/
  sink : List SinkAnswer
  /-- The agents' coming turns. -/
  turns : List Turn
  /-- The value the host received from its last CSR read. -/
  readData : Option Word
  deriving DecidableEq, Repr

/-- The outcome of an instruction or a step. -/
abbrev Result := Host.Outcome State Fault Refusal

/-- The machine right after power-on: the block at the values of R53, every TXMEM byte unwritten (R251), and agents
that have done nothing and have nothing to do (DESIGN CHOICE, log entry 11). -/
def State.reset : State :=
  { cfg := Config.standard
    code := .ok
    dstate := .idle
    inErr := false
    result := 0#32
    rxHdr := 0#32
    rxPixcnt := 0#16
    rxSysid := 0#16
    rxDlen := 0#16
    txChan := 0#8
    txKind := 0#1
    txCount := 0#24
    txSysid := 0#16
    txBase := 0#32
    rxbuf := []
    ephase := .idle
    txmem := []
    sinkLog := []
    host := []
    source := []
    sink := []
    turns := []
    readData := none }

end Sys2Proof.Machine
end

