-- ==== Sys2Proof/Machine/Ops.lean ====
section
/-! DEFINITION. The named operations over memory and registers: TXMEM, RXBUF, completing a command, the reset input, the sink log (00_scope.md R12). -/

namespace Sys2Proof.Machine

/-! ## Byte memory (R48) -/

/-- The byte at `a`, none where nothing has been written. -/
def Memory.read : Memory → Nat → Option Byte
  | [], _ => none
  | c :: m, a => if c.1 = a then some c.2 else Memory.read m a

/-- Store a byte, keeping the addresses strictly rising. -/
def Memory.write : Memory → Nat → Byte → Memory
  | [], a, b => [(a, b)]
  | c :: m, a, b =>
    if a < c.1 then (a, b) :: c :: m
    else if c.1 = a then (a, b) :: m
    else c :: Memory.write m a b

/-- Store bytes from `a` upward. -/
def Memory.writeBytes : Memory → Nat → List Byte → Memory
  | m, _, [] => m
  | m, a, b :: bs => Memory.writeBytes (Memory.write m a b) (a + 1) bs

/-- The canonical form: addresses strictly rising. An unlisted address reads as no value, so no entry equals it. -/
abbrev Memory.wf (m : Memory) : Prop := m.Pairwise fun c d => c.1 < d.1

/-- Every listed address exists: it is below TXMEM_SIZE (R48). -/
abbrev Memory.below (m : Memory) (size : Nat) : Prop := ∀ c ∈ m, c.1 < size

/-- The `n` bytes at `a, a+1, ...` of a byte store, none if one of them has no value: MemRead of R12, and the runs of
RxByte that a message is made of. -/
def bytesFrom (get : Nat → Option Byte) (a : Nat) : Nat → Option (List Byte)
  | 0 => some []
  | n + 1 =>
    match get a, bytesFrom get (a + 1) n with
    | some b, some bs => some (b :: bs)
    | _, _ => none

/-! ## RXBUF (R47) -/

/-- RXCNT. -/
abbrev State.rxCount (s : State) : Nat := s.rxbuf.length

/-- RxByte(i) of R12; no position at or past RXCNT exists (R47). -/
def State.rxByte (s : State) (i : Nat) : Option Byte := s.rxbuf[i]?

/-- The header word at the front of RXBUF, once 4 bytes are buffered. -/
def State.rxFront (s : State) : Option Word := headerOf s.rxbuf

/-- Append(b) of R12. -/
def State.append (s : State) (b : Byte) : State := { s with rxbuf := s.rxbuf ++ [b] }

/-- Consume(k) of R12, none where its precondition `k <= RXCNT` fails. -/
def State.consume (s : State) (k : Nat) : Option State :=
  if k ≤ s.rxCount then some { s with rxbuf := s.rxbuf.drop k } else none

/-! ## Registers -/

/-- finish(CODE) of R12. The block has no exceptions (60_exceptions.md R224 to R226): this is how every command ends,
one that meets an error too, and nothing is saved and nothing is returned from. -/
def State.finish (s : State) (c : Code) : State := { s with code := c }

/-- The command succeeded and returned a value (R36). -/
def State.answer (s : State) (v : Word) : State := { s with result := v, code := .ok }

/-- Clear the four RX result registers and hold no frame, as RECV, DONE and SKIP do (R38 to R41, R180, R190, R195). -/
def State.clearRx (s : State) : State :=
  { s with rxHdr := 0#32, rxPixcnt := 0#16, rxSysid := 0#16, rxDlen := 0#16, dstate := .idle }

/-- A RECV reports the latched input error and clears the latch (R35). -/
def State.clearInErr (s : State) : State := { s with inErr := false }

/-- The header is parsed: RX_HDR shows it (R38, R180). -/
def State.setHdr (s : State) (h : Word) : State := { s with rxHdr := h }

/-- A SetPixelColors message with `n` pixels is presented (R182). -/
def State.presentPixels (s : State) (n : Half) : State :=
  { s with rxPixcnt := n, dstate := .delivering, code := .delivered }

/-- A SystemExclusive message with this id and data length is presented (R183). -/
def State.presentSysex (s : State) (id n : Half) : State :=
  { s with rxSysid := id, rxDlen := n, dstate := .delivering, code := .delivered }

/-- The frame at the front failed and is held for SKIP (R183, R184). -/
def State.holdError (s : State) (c : Code) : State := { s with dstate := .errHeld, code := c }

/-- EPHASE <- p. -/
def State.setPhase (s : State) (p : EPhase) : State := { s with ephase := p }

/-- A sink transaction has ended: the sink log grows by it and its answer (R142). R142 gives no case for a transaction
that is issued and not answered. DESIGN CHOICE (log entry 21): the log does not show it, and it adds no byte to the sink
stream, until it is answered or reset abandons it. -/
def State.logTxn (s : State) (t : SinkTxn) (r : SinkReply) : State :=
  { s with sinkLog := s.sinkLog ++ [⟨t, r⟩] }

/-- The block after one reset step (R53, R250): TXMEM, the configuration and the agents keep what they have. -/
def State.resetBlock (s : State) : State :=
  { s with
    code := .ok
    dstate := .idle
    inErr := false
    result := 0#32
    rxHdr := 0#32
    rxPixcnt := 0#16
    rxSysid := 0#16
    rxDlen := 0#16
    txChan := 0#8
    txKind := 0#1
    txCount := 0#24
    txSysid := 0#16
    txBase := 0#32
    rxbuf := []
    ephase := .idle }

/-! ## The sink (R142) -/

/-- The bytes one transaction adds to the sink stream: all of an accepted write, the kept prefix of any other write,
nothing for a flush. A `kept` beyond the write's length keeps all of it (log entry 9). -/
def SinkEntry.accepted (e : SinkEntry) : List Byte :=
  match e.txn, e.reply with
  | .write bs, .ok => bs
  | .write bs, .fail k => bs.take k
  | .write bs, .abandoned k => bs.take k
  | .flush, _ => []

/-- The sink stream, which the sink log determines. -/
def sinkStream (log : List SinkEntry) : List Byte := log.flatMap SinkEntry.accepted

/-! ## The configuration -/

/-- Why a configuration has no meaning, if it has none (R8, R9, R29, R235). The spec has one host (20_memory.md R75,
60_exceptions.md R231), refuses more and says nothing of none. DESIGN CHOICE (log entry 22): `hosts = 0` is not refused
and runs as `hosts = 1` does. -/
def configRefusal (c : Config) : Option Refusal :=
  if c.bufCap < 65539 then some .bufCapTooSmall
  else if 1 < c.hosts then some .severalHosts
  else if 4294967295 < c.bufCap ∨ 4294967296 < c.txmemSize then some .parameterRange
  else none

end Sys2Proof.Machine
end

