-- ==== Sys2Proof/Machine/Flags.lean ====
section
/-! DEFINITION. The STATUS fields (10_state.md R31, R34, R52) and the classes of result codes (60_exceptions.md R220 to R223). -/

namespace Sys2Proof.Machine

/-- The bits of STATUS.CODE (R220). -/
def Code.bits : Code → Byte
  | .ok => 0x00#8
  | .delivered => 0x01#8
  | .incompleteHeader => 0x02#8
  | .incompletePayload => 0x03#8
  | .ioFailure => 0x10#8
  | .malformed => 0x11#8
  | .unrecognized => 0x12#8
  | .oversized => 0x13#8
  | .illegalCmd => 0x20#8
  | .badState => 0x21#8
  | .badIndex => 0x22#8
  | .badAddr => 0x23#8

/-- The bits of STATUS.DSTATE (R31). -/
def DState.bits : DState → BitVec 2
  | .idle => 0#2
  | .delivering => 1#2
  | .errHeld => 2#2

/-- STATUS.RESYNC, a function of CODE (R34). -/
def Code.resync : Code → Bool
  | .malformed => true
  | .unrecognized => true
  | .ok => false
  | .delivered => false
  | .incompleteHeader => false
  | .incompletePayload => false
  | .ioFailure => false
  | .oversized => false
  | .illegalCmd => false
  | .badState => false
  | .badIndex => false
  | .badAddr => false

/-- The groups of result codes: success (R220), incomplete (R220, R222), and the three groups of failures of R223. -/
inductive CodeClass where
  | success
  | incomplete
  | resyncable
  | callFailure
  | interfaceError
  deriving DecidableEq, Repr

/-- The group of a result code: R220's column "class" for the successes and the incomplete codes, R223's groups for
the failures. The two differ on BAD_ADDR: R220 has it among the interface errors, R223 among the call failures. DESIGN
CHOICE (log entry 23): R223. No step and no register reads the group. -/
def Code.group : Code → CodeClass
  | .ok => .success
  | .delivered => .success
  | .incompleteHeader => .incomplete
  | .incompletePayload => .incomplete
  | .malformed => .resyncable
  | .unrecognized => .resyncable
  | .ioFailure => .callFailure
  | .oversized => .callFailure
  | .badAddr => .callFailure
  | .illegalCmd => .interfaceError
  | .badState => .interfaceError
  | .badIndex => .interfaceError

/-- The word a read of STATUS returns (R31): reserved bits 0, INERR, RESYNC, DSTATE, CODE. -/
def State.statusWord (s : State) : Word :=
  0#20 ++ BitVec.ofBool s.inErr ++ BitVec.ofBool s.code.resync ++ s.dstate.bits ++ s.code.bits

end Sys2Proof.Machine
end

