-- ==== Sys2Proof/Machine/Csr.lean ====
section
/-! DEFINITION. The CSR map and CSR reads and writes (10_state.md R25 to R46; 20_memory.md R62, R63, R67). -/

namespace Sys2Proof.Machine

/-- The registers of R25. -/
inductive Csr where
  | id
  | defport
  | bufcap
  | cmd
  | status
  | result
  | rxCount
  | rxHdr
  | rxPixcnt
  | rxSysid
  | rxDlen
  | txChan
  | txKind
  | txCount
  | txSysid
  | txBase
  deriving DecidableEq, Repr

/-- The register at a byte offset, none where the offset is unmapped or not a multiple of 4 (R25, R62). -/
def csrAt (offset : Nat) : Option Csr :=
  if offset = 0x00 then some .id
  else if offset = 0x04 then some .defport
  else if offset = 0x08 then some .bufcap
  else if offset = 0x0C then some .cmd
  else if offset = 0x10 then some .status
  else if offset = 0x14 then some .result
  else if offset = 0x18 then some .rxCount
  else if offset = 0x1C then some .rxHdr
  else if offset = 0x20 then some .rxPixcnt
  else if offset = 0x24 then some .rxSysid
  else if offset = 0x28 then some .rxDlen
  else if offset = 0x30 then some .txChan
  else if offset = 0x34 then some .txKind
  else if offset = 0x38 then some .txCount
  else if offset = 0x3C then some .txSysid
  else if offset = 0x40 then some .txBase
  else none

/-- The register a bus access reaches: 32 bits wide, at a mapped offset from CSR_BASE; none is a bus error (R62, R67).
An address below CSR_BASE has no offset. DESIGN CHOICE (log entry 13): a bus error, safe. -/
def csrAccess (cfg : Config) (bits addr : Nat) : Option Csr :=
  if bits = 32 ∧ cfg.csrBase ≤ addr then csrAt (addr - cfg.csrBase) else none

/-- What a read of a register returns; reserved bits read 0, CMD reads 0 (R26). -/
def State.csrRead (s : State) : Csr → Word
  | .id => idValue
  | .defport => defaultPort
  | .bufcap => BitVec.ofNat 32 s.cfg.bufCap
  | .cmd => 0#32
  | .status => s.statusWord
  | .result => s.result
  | .rxCount => BitVec.ofNat 32 s.rxCount
  | .rxHdr => s.rxHdr
  | .rxPixcnt => s.rxPixcnt.setWidth 32
  | .rxSysid => s.rxSysid.setWidth 32
  | .rxDlen => s.rxDlen.setWidth 32
  | .txChan => s.txChan.setWidth 32
  | .txKind => s.txKind.setWidth 32
  | .txCount => s.txCount.setWidth 32
  | .txSysid => s.txSysid.setWidth 32
  | .txBase => s.txBase

/-- What a write to a register other than CMD stores: an RW register its field, an RO register nothing (R26, R63). The
word written to CMD is not stored either (R30). -/
def State.csrStore (s : State) (v : Word) : Csr → State
  | .id => s
  | .defport => s
  | .bufcap => s
  | .cmd => s
  | .status => s
  | .result => s
  | .rxCount => s
  | .rxHdr => s
  | .rxPixcnt => s
  | .rxSysid => s
  | .rxDlen => s
  | .txChan => { s with txChan := v.setWidth 8 }
  | .txKind => { s with txKind := v.setWidth 1 }
  | .txCount => { s with txCount := v.setWidth 24 }
  | .txSysid => { s with txSysid := v.setWidth 16 }
  | .txBase => { s with txBase := v }

end Sys2Proof.Machine
end

