-- ==== Sys2Proof/Machine/Message.lean ====
section
/-! DEFINITION. The message value (00_scope.md R14), its queries as functions (40_message_model.md R120, R121), its frame (41_encoder.md R144), and the two messages the block holds (R122, R124). -/

namespace Sys2Proof.Machine

/-- An RGB triple (R14). -/
structure Pixel where
  r : Byte
  g : Byte
  b : Byte
  deriving DecidableEq, Repr

/-- The two command variants of a message (R14). -/
inductive Command where
  | setPixelColors (pixels : List Pixel)
  | systemExclusive (id0 id1 : Byte) (data : List Byte)
  deriving DecidableEq, Repr

/-- A message (R14). -/
structure Message where
  channel : Byte
  command : Command
  deriving DecidableEq, Repr

/-- `length(m)`, exact (R120). -/
def Message.length (m : Message) : Nat :=
  match m.command with
  | .setPixelColors ps => 3 * ps.length
  | .systemExclusive _ _ data => 2 + data.length

/-- `is_valid(m)` (R121). -/
def Message.isValid (m : Message) : Bool := decide (m.length ≤ maxLen)

/-- `is_broadcast(m)` (R121). -/
def Message.isBroadcast (m : Message) : Bool := m.channel == 0#8

/-- The command tag of a message (R144). -/
def Message.tag (m : Message) : Byte :=
  match m.command with
  | .setPixelColors _ => tagSpc
  | .systemExclusive _ _ _ => tagSysex

/-- The bytes of one pixel in wire order (R61). -/
def Pixel.bytes (p : Pixel) : List Byte := [p.r, p.g, p.b]

/-- The payload section of a message (R144). -/
def Message.payload (m : Message) : List Byte :=
  match m.command with
  | .setPixelColors ps => ps.flatMap Pixel.bytes
  | .systemExclusive id0 id1 data => id0 :: id1 :: data

/-- `Encode(ch, tag, payload)` of R144, for a payload of at most 65535 bytes. -/
def encodeFrame (chan tag : Byte) (payload : List Byte) : List Byte :=
  headerBytes (mkHeader chan tag payload.length) ++ payload

/-- The frame a message encodes to (R144). -/
def Message.encode (m : Message) : List Byte := encodeFrame m.channel m.tag m.payload

/-- The `n` pixels at `a, a+3, ...` of a byte store. -/
def pixelsFrom (get : Nat → Option Byte) (a : Nat) : Nat → Option (List Pixel)
  | 0 => some []
  | n + 1 =>
    match get a, get (a + 1), get (a + 2), pixelsFrom get (a + 3) n with
    | some r, some g, some b, some ps => some (⟨r, g, b⟩ :: ps)
    | _, _, _, _ => none

/-- The TX message, none if a byte of it is unwritten (R122). -/
def State.txMessage (s : State) : Option Message :=
  if s.txKind = 0#1 then
    match pixelsFrom s.txmem.read s.txBase.toNat s.txCount.toNat with
    | some ps => some ⟨s.txChan, .setPixelColors ps⟩
    | none => none
  else
    match bytesFrom s.txmem.read s.txBase.toNat s.txCount.toNat with
    | some data => some ⟨s.txChan, .systemExclusive (hiByte s.txSysid) (loByte s.txSysid) data⟩
    | none => none

/-- The RX message, which exists only while a message is delivered (R124, R182, R183). -/
def State.rxMessage (s : State) : Option Message :=
  if s.dstate = .delivering then
    if hdrTag s.rxHdr = tagSpc then
      match pixelsFrom s.rxByte 4 s.rxPixcnt.toNat with
      | some ps => some ⟨hdrChan s.rxHdr, .setPixelColors ps⟩
      | none => none
    else
      match bytesFrom s.rxByte 6 s.rxDlen.toNat with
      | some data => some ⟨hdrChan s.rxHdr, .systemExclusive (hiByte s.rxSysid) (loByte s.rxSysid) data⟩
      | none => none
  else none

end Sys2Proof.Machine
end

