-- ==== Sys2Proof/Machine/Operands.lean ====
section
/-! DEFINITION. The operands of the commands: the TX descriptor (40_message_model.md R122), the delivered message (R124), the SEL choice between them (30_encoding.md R95, R96). -/

namespace Sys2Proof.Machine

/-- The length of the TX message, from the registers alone (R122). -/
def State.txLength (s : State) : Nat :=
  if s.txKind = 0#1 then pixelBytes * s.txCount.toNat else sysidBytes + s.txCount.toNat

/-- `m` of R146: how many payload bytes stand in TXMEM. -/
def State.txMemBytes (s : State) : Nat :=
  if s.txKind = 0#1 then pixelBytes * s.txCount.toNat else s.txCount.toNat

/-- The wire tag of the TX message (R43). -/
def State.txTag (s : State) : Byte := if s.txKind = 0#1 then tagSpc else tagSysex

/-- The payload of the TX message, none if a TXMEM byte of it is unwritten (R146). -/
def State.txPayload (s : State) : Option (List Byte) :=
  match bytesFrom s.txmem.read s.txBase.toNat s.txMemBytes with
  | some data => some (if s.txKind = 0#1 then data else hiByte s.txSysid :: loByte s.txSysid :: data)
  | none => none

/-- The length of the delivered message, from the registers (R124). -/
def State.rxLength (s : State) : Nat :=
  if hdrTag s.rxHdr = tagSpc then pixelBytes * s.rxPixcnt.toNat else sysidBytes + s.rxDlen.toNat

/-- The length of the selected message, none where SEL names a delivered message and none is (R125). -/
def State.selLength (s : State) : Sel → Option Nat
  | .tx => some s.txLength
  | .rx => if s.dstate = .delivering then some s.rxLength else none

/-- The channel of the selected message, none where SEL names a delivered message and none is (R129). -/
def State.selChannel (s : State) : Sel → Option Byte
  | .tx => some s.txChan
  | .rx => if s.dstate = .delivering then some (hdrChan s.rxHdr) else none

/-- Pixel `i` of the delivered frame as the word 0x00RRGGBB, none beyond RXCNT (R200). -/
def State.pixelWord (s : State) (i : Nat) : Option Word :=
  match s.rxByte (4 + 3 * i), s.rxByte (5 + 3 * i), s.rxByte (6 + 3 * i) with
  | some r, some g, some b => some (0x00#8 ++ r ++ g ++ b)
  | _, _, _ => none

/-- Data byte `i` of the delivered frame, zero-extended, none beyond RXCNT (R202). -/
def State.dataWord (s : State) (i : Nat) : Option Word :=
  match s.rxByte (6 + i) with
  | some b => some (b.setWidth 32)
  | none => none

end Sys2Proof.Machine
end

