-- ==== Sys2Proof/Machine/Decoder.lean ====
section
/-! DEFINITION. The frame decoder: RECV and the two frames it parses, DONE, SKIP, RDPIX, RDDATA (42_decoder.md R180 to R202). -/

namespace Sys2Proof.Machine

/-- One receive attempt up to "Awaiting header" (R180): BAD_STATE while a message is delivered; otherwise the RX
registers are cleared and a latched input error is reported once, before any byte is looked at; then `parse`. -/
def receive (parse : State → Result) (s : State) : Result :=
  if s.dstate = .delivering then .next (s.finish .badState)
  else if s.inErr then .next (s.clearRx.clearInErr.finish .ioFailure)
  else parse s.clearRx

/-- "Header parsed" (R180): RX_HDR shows the header; `frame` runs once the whole frame is buffered. -/
def withHeader (h : Word) (frame : State → Result) (s : State) : Result :=
  if s.rxCount < frameLen h then .next ((s.setHdr h).finish .incompletePayload)
  else frame (s.setHdr h)

/-- "Frame complete", tag 0x00 (R182). -/
def parsePixels (len : Nat) (s : State) : Result :=
  .next (s.presentPixels (BitVec.ofNat 16 (len / pixelBytes)))

/-- "Frame complete", tag 0xFF (R183). -/
def parseSysex (len : Nat) (s : State) : Result :=
  if len < sysidBytes then .next (s.holdError .malformed)
  else
    match s.rxByte 4, s.rxByte 5 with
    | some a, some b => .next (s.presentSysex (a ++ b) (BitVec.ofNat 16 (len - sysidBytes)))
    | _, _ => .fault .invariant

/-- "Frame complete", any other tag (R184). -/
def parseUnknown (s : State) : Result := .next (s.holdError .unrecognized)

/-- RECV from "Awaiting header" on: decode the header at the front and run the frame it opens (R180). -/
def parseFront (s : State) : Result :=
  match s.rxFront with
  | none => .next (s.finish .incompleteHeader)
  | some h =>
    match decodeFrame h with
    | .ok (.frameSetPixelColors _ len) => withHeader h (parsePixels len) s
    | .ok (.frameSystemExclusive _ len) => withHeader h (parseSysex len) s
    | _ => withHeader h parseUnknown s

/-- RECV (R180). -/
def execRecv (s : State) : Result := receive parseFront s

/-- FRAME.SetPixelColors: the receive attempt that finds this frame's header at the front of RXBUF (R180, R182).
DEDUCED (log entry 3). -/
def execFrameSetPixelColors (chan : Byte) (len : Nat) (s : State) : Result :=
  receive (withHeader (mkHeader chan tagSpc len) (parsePixels len)) s

/-- FRAME.SystemExclusive: the receive attempt that finds this frame's header at the front of RXBUF (R180, R183).
DEDUCED (log entry 3). -/
def execFrameSystemExclusive (chan : Byte) (len : Nat) (s : State) : Result :=
  receive (withHeader (mkHeader chan tagSysex len) (parseSysex len)) s

/-- Consume the frame RX_HDR announces and hold no frame, in DSTATE `held` only (R190, R195). -/
def release (held : DState) (s : State) : Result :=
  if s.dstate = held then
    match s.consume (frameLen s.rxHdr) with
    | some t => .next (t.clearRx.finish .ok)
    | none => .fault .invariant
  else .next (s.finish .badState)

/-- DONE (R190). -/
def execDone (s : State) : Result := release .delivering s

/-- SKIP (R195). -/
def execSkip (s : State) : Result := release .errHeld s

/-- Read item `i` of `count` of the delivered message (R200, R202). -/
def readItem (i count : Nat) (item : Option Word) (s : State) : Result :=
  if s.dstate = .delivering then
    if count ≤ i then .next (s.finish .badIndex)
    else
      match item with
      | some v => .next (s.answer v)
      | none => .fault .invariant
  else .next (s.finish .badState)

/-- RDPIX (R200). -/
def execRdpix (idx : Nat) (s : State) : Result := readItem idx s.rxPixcnt.toNat (s.pixelWord idx) s

/-- RDDATA (R202). -/
def execRddata (idx : Nat) (s : State) : Result := readItem idx s.rxDlen.toNat (s.dataWord idx) s

end Sys2Proof.Machine
end

