-- ==== Sys2Proof/Machine/Encoder.lean ====
section
/-! DEFINITION. SEND and the encoder engine (41_encoder.md R140 to R151). -/

namespace Sys2Proof.Machine

/-- SEND, step 1 (R146): the checks in R149's order; then the first sink transaction is outstanding. -/
def execSend (s : State) : Result :=
  if maxLen < s.txLength then .next (s.finish .oversized)
  else if s.cfg.txmemSize < s.txBase.toNat + s.txMemBytes then .next (s.finish .badAddr)
  else
    match s.txPayload with
    | some _ => .next (s.setPhase .w1)
    | none => .fault .uninitTxmem

/-- The sink transaction EPHASE names (R146). The block stores no payload (10_state.md R22): it is formed from the TX
registers and TXMEM, which no agent can change while a SEND is in flight (20_memory.md R70, R76; log entry 6). -/
def State.outstanding (s : State) : Option SinkTxn :=
  match s.ephase with
  | .idle => none
  | .w1 => some (.write [s.txChan])
  | .w2 => some (.write [s.txTag])
  | .w3 => some (.write [hiByte (BitVec.ofNat 16 s.txLength), loByte (BitVec.ofNat 16 s.txLength)])
  | .w4 => s.txPayload.map .write
  | .flush => some .flush

/-- The phase after an answer `ok` (R146); W4 is left out for an empty payload (R148). -/
def State.phaseAfter (s : State) : EPhase :=
  match s.ephase with
  | .idle => .idle
  | .w1 => .w2
  | .w2 => .w3
  | .w3 => if s.txLength = 0 then .flush else .w4
  | .w4 => .flush
  | .flush => .idle

/-- The sink answers the outstanding transaction `t` (R146, R147). `ok` goes to the next phase, and ends the SEND with
OK after the flush; `fail` ends it with IO_FAILURE. -/
def sinkAnswers (t : SinkTxn) (a : SinkAnswer) (s : State) : State :=
  match a with
  | .ok =>
    let s' := (s.logTxn t .ok).setPhase s.phaseAfter
    if s.ephase = .flush then s'.finish .ok else s'
  | .fail k => ((s.logTxn t (.fail k)).setPhase .idle).finish .ioFailure

end Sys2Proof.Machine
end

