-- ==== Sys2Proof/Machine/Queries.lean ====
section
/-! DEFINITION. The message model commands LENGTH, ISVALID and ISBCAST (40_message_model.md R125, R127, R129). -/

namespace Sys2Proof.Machine

/-- A query answers with `f` of what it selects, and gives BAD_STATE where nothing is selected (R125, R127, R129). -/
def query {α : Type} (selected : Option α) (f : α → Word) (s : State) : Result :=
  match selected with
  | some v => .next (s.answer (f v))
  | none => .next (s.finish .badState)

/-- A truth value as RESULT shows it. -/
def truthWord (b : Bool) : Word := if b then 1#32 else 0#32

/-- LENGTH (R125). -/
def execLength (sel : Sel) (s : State) : Result :=
  query (s.selLength sel) (fun n => BitVec.ofNat 32 n) s

/-- ISVALID (R127). -/
def execIsvalid (sel : Sel) (s : State) : Result :=
  query (s.selLength sel) (fun n => truthWord (decide (n ≤ maxLen))) s

/-- ISBCAST (R129). -/
def execIsbcast (sel : Sel) (s : State) : Result :=
  query (s.selChannel sel) (fun ch => truthWord (ch == 0#8)) s

end Sys2Proof.Machine
end

