-- ==== Sys2Proof/Machine/Dispatch.lean ====
section
/-! DEFINITION. The meaning of every instruction: one arm per row of spec/opcode_table.json. -/

namespace Sys2Proof.Machine

def exec (i : Instr) (s : State) : Host.Outcome State Fault Refusal :=
  match i with
  -- the decoder's commands (42_decoder.md)
  | .recv => Sys2Proof.Machine.execRecv s
  | .done => Sys2Proof.Machine.execDone s
  | .skip => Sys2Proof.Machine.execSkip s
  | .rdpix idx => Sys2Proof.Machine.execRdpix idx s
  | .rddata idx => Sys2Proof.Machine.execRddata idx s
  -- the encoder's command (41_encoder.md)
  | .send => Sys2Proof.Machine.execSend s
  -- the message model's commands (40_message_model.md)
  | .length sel => Sys2Proof.Machine.execLength sel s
  | .isvalid sel => Sys2Proof.Machine.execIsvalid sel s
  | .isbcast sel => Sys2Proof.Machine.execIsbcast sel s
  -- the frames a RECV parses (42_decoder.md R182, R183)
  | .frameSetPixelColors chan len => Sys2Proof.Machine.execFrameSetPixelColors chan len s
  | .frameSystemExclusive chan len => Sys2Proof.Machine.execFrameSystemExclusive chan len s

end Sys2Proof.Machine
end

