-- ==== Sys2Proof/Machine/Agents.lean ====
section
/-! DEFINITION. One step of each agent: the host, the input source, the sink with the encoder engine, reset (00_scope.md R6; 20_memory.md R70, R71; 41_encoder.md R147; 42_decoder.md R171, R172; 70_reset_and_hazards.md R250). -/

namespace Sys2Proof.Machine

/-- A word written to CMD issues the command it encodes (R30); an illegal word completes at once with ILLEGAL_CMD and
changes no other state (30_encoding.md R99). -/
def issue (w : Word) (s : State) : Result :=
  match decodeCmd w with
  | .ok i => exec i s
  | .error _ => .next (s.finish .illegalCmd)

/-- A CSR write (20_memory.md R62, R63). -/
def hostWrite (bits addr : Nat) (v : Word) (s : State) : Result :=
  match csrAccess s.cfg bits addr with
  | none => .fault .busError
  | some .cmd => issue v s
  | some r => .next (s.csrStore v r)

/-- A CSR read: the host receives the value and the block does not change (R62, R63). -/
def hostRead (bits addr : Nat) (s : State) : Result :=
  match csrAccess s.cfg bits addr with
  | none => .fault .busError
  | some r => .next { s with readData := some (s.csrRead r) }

/-- The host writes TXMEM (10_state.md R48, 70_reset_and_hazards.md R262). -/
def hostTxw (addr : Nat) (bytes : List Byte) (s : State) : Result :=
  if bytes.length = 0 ∨ addr + bytes.length ≤ s.cfg.txmemSize then
    .next { s with txmem := s.txmem.writeBytes addr bytes }
  else .fault .txmemRange

/-- A move of the host. -/
def hostMove : HostMove → State → Result
  | .write bits addr v, s => hostWrite bits addr v s
  | .read bits addr, s => hostRead bits addr s
  | .txw addr bytes, s => hostTxw addr bytes s

/-- The host's turn. While a SEND is in flight the host has no step (20_memory.md R70, 60_exceptions.md R234). -/
def hostTurn (s : State) : Result :=
  if s.ephase = .idle then
    match s.host with
    | [] => .next s
    | m :: ms => hostMove m { s with host := ms }
  else .next s

/-- The input source's turn (42_decoder.md R171, R172). A push is enabled iff RXCNT < BUF_CAP; while it is not, the
source is held (20_memory.md R79). -/
def sourceTurn (s : State) : State :=
  match s.source with
  | [] => s
  | .push b :: ms => if s.rxCount < s.cfg.bufCap then { s with source := ms }.append b else s
  | .error :: ms => { s with source := ms, inErr := true }

/-- The sink's turn: it answers the outstanding transaction, and the encoder engine goes on (41_encoder.md R147). With
nothing outstanding, or no answer to come, there is no step (R141, 60_exceptions.md R234). -/
def sinkTurn (s : State) : Result :=
  if s.ephase = .idle then .next s
  else
    match s.outstanding with
    | none => .fault .uninitTxmem
    | some t =>
      match s.sink with
      | [] => .next s
      | a :: as => .next (sinkAnswers t a { s with sink := as })

/-- Reset (70_reset_and_hazards.md R250): the block goes to its reset state. A SEND in flight is abandoned; of its
outstanding write the sink keeps a prefix. -/
def resetTurn (kept : Nat) (s : State) : State :=
  match s.outstanding with
  | some t => (s.logTxn t (.abandoned kept)).resetBlock
  | none => s.resetBlock

/-- One turn of one agent. -/
def takeTurn (t : Turn) (s : State) : Result :=
  match t with
  | .host => hostTurn s
  | .source => .next (sourceTurn s)
  | .sink => sinkTurn s
  | .reset kept => .next (resetTurn kept s)

/-- The next agent takes its turn; with no turn to come nothing happens (DESIGN CHOICE, log entry 1). -/
def nextTurn (s : State) : Result :=
  match s.turns with
  | [] => .next s
  | t :: ts => takeTurn t { s with turns := ts }

/-- The host is about to write `w` to CMD, and it is the host's turn. -/
def State.placeCommand (s : State) (w : Word) : State :=
  { s with
    ephase := .idle
    host := .write 32 (s.cfg.csrBase + 0x0C) w :: s.host
    turns := .host :: s.turns }

/-- The frame with header `h` and a payload of zeros is stored over the front of RXBUF, no frame is held and no input
error latched, and the host is about to issue RECV: the next step reads this header (42_decoder.md R180). -/
def State.placeFrame (s : State) (h : Word) : State :=
  { s.clearRx with
    inErr := false
    rxbuf := headerBytes h ++ List.replicate (hdrPayload h) 0#8 ++ s.rxbuf.drop (frameLen h) }.placeCommand (encode .recv)

end Sys2Proof.Machine
end

