-- ==== Sys2Proof/Machine/Step.lean ====
section
/-! DEFINITION. One step of the machine, and where the step finds the instruction it runs. -/

namespace Sys2Proof.Machine

/-- A configuration the spec gives no meaning is refused (60_exceptions.md R235); otherwise the next agent takes its
turn (R229). -/
def step (s : State) : Host.Outcome State Fault Refusal :=
  match configRefusal s.cfg with
  | some r => .refused r
  | none => nextTurn s

/-- `s` with the instruction whose bits are `w` as the one the next step runs: a legal command as the host's next CMD
write, any other word as the header of the frame at the front of RXBUF (log entry 4). -/
def State.withFetchWord (s : State) (nbits w : Nat) : State :=
  let v : Word := BitVec.ofNat 32 (w % 2 ^ nbits)
  match decodeCmd v with
  | .ok _ => s.placeCommand v
  | .error _ => s.placeFrame v

end Sys2Proof.Machine
end

