-- ==== Sys2Proof/Safety.lean ====
section
/-! DEFINITION. The invariants of 10_state.md R50 and of the registers and TXMEM, holds (60_exceptions.md R234) and the end of a run (70_reset_and_hazards.md R265). -/

namespace Sys2Proof.Machine

/-! ## The invariants of R50 -/

/-- R50(a). -/
abbrev State.bufBounded (s : State) : Prop := s.rxCount ≤ s.cfg.bufCap

/-- R50(b). -/
abbrev State.frontHeld (s : State) : Prop :=
  s.dstate ≠ .idle → s.rxFront = some s.rxHdr ∧ frameLen s.rxHdr ≤ s.rxCount

/-- R50(c). -/
abbrev State.deliveredValid (s : State) : Prop :=
  s.dstate = .delivering →
    hdrTag s.rxHdr = tagSpc ∨ (hdrTag s.rxHdr = tagSysex ∧ 2 ≤ hdrPayload s.rxHdr)

/-- R50(d). -/
abbrev State.errorInvalid (s : State) : Prop :=
  s.dstate = .errHeld →
    (hdrTag s.rxHdr ≠ tagSpc ∧ hdrTag s.rxHdr ≠ tagSysex) ∨
      (hdrTag s.rxHdr = tagSysex ∧ hdrPayload s.rxHdr < 2)

/-- R50(e). -/
abbrev State.idleClear (s : State) : Prop :=
  s.dstate = .idle → s.rxPixcnt = 0#16 ∧ s.rxSysid = 0#16 ∧ s.rxDlen = 0#16

/-- R50, all five. -/
abbrev State.R50 (s : State) : Prop :=
  s.bufBounded ∧ s.frontHeld ∧ s.deliveredValid ∧ s.errorInvalid ∧ s.idleClear

/-! ## What the RX registers show (R39 to R41) -/

/-- RX_PIXCNT, RX_SYSID and RX_DLEN describe the delivered frame. -/
abbrev State.deliveredRegs (s : State) : Prop :=
  s.dstate = .delivering →
    (hdrTag s.rxHdr = tagSpc →
      s.rxPixcnt = BitVec.ofNat 16 (hdrPayload s.rxHdr / 3) ∧ s.rxSysid = 0#16 ∧ s.rxDlen = 0#16) ∧
    (hdrTag s.rxHdr = tagSysex →
      s.rxPixcnt = 0#16 ∧ s.rxDlen = BitVec.ofNat 16 (hdrPayload s.rxHdr - 2) ∧
      s.rxByte 4 = some (hiByte s.rxSysid) ∧ s.rxByte 5 = some (loByte s.rxSysid))

/-- They are 0 while a failed frame is held. -/
abbrev State.errorClear (s : State) : Prop :=
  s.dstate = .errHeld → s.rxPixcnt = 0#16 ∧ s.rxSysid = 0#16 ∧ s.rxDlen = 0#16

/-! ## The encoder and TXMEM -/

/-- A SEND in flight has passed the checks of 41_encoder.md R146, and W4 is never entered with an empty payload
(R148). -/
abbrev State.sendReady (s : State) : Prop :=
  (s.ephase ≠ .idle →
    s.txLength ≤ 65535 ∧ s.txBase.toNat + s.txMemBytes ≤ s.cfg.txmemSize ∧ s.txPayload.isSome = true) ∧
  (s.ephase = .w4 → s.txLength ≠ 0)

/-- TXMEM is in canonical form and holds no byte at an address that does not exist (R48). -/
abbrev State.txmemOk (s : State) : Prop := s.txmem.wf ∧ s.txmem.below s.cfg.txmemSize

/-- The invariant every step keeps. -/
abbrev State.Inv (s : State) : Prop :=
  s.R50 ∧ s.deliveredRegs ∧ s.errorClear ∧ s.sendReady ∧ s.txmemOk

/-! ## Runs, holds and the end of a run -/

/-- `k` steps, ending early where a step faults or is refused. -/
def runFor : Nat → State → Result
  | 0, s => .next s
  | k + 1, s =>
    match step s with
    | .next t => runFor k t
    | .fault f => .fault f
    | .refused r => .refused r

/-- The source is held: its next event is a push and RXBUF is full (R79, R234). -/
abbrev State.sourceHeld (s : State) : Prop :=
  (∃ b ms, s.source = .push b :: ms) ∧ ¬ s.rxCount < s.cfg.bufCap

/-- The host is held: a SEND is in flight (R70, R234). -/
abbrev State.hostHeld (s : State) : Prop := s.ephase ≠ .idle

/-- The encoder engine is held: its transaction has no answer (R234). -/
abbrev State.encoderHeld (s : State) : Prop := s.ephase ≠ .idle ∧ s.sink = []

/-- The end of a run (R265): the host has no further step and no SEND is in flight. A faulted run has no state, so the
third condition, that no model fault is recorded, holds of every state. -/
abbrev State.endOfRun (s : State) : Prop := s.host = [] ∧ s.ephase = .idle

end Sys2Proof.Machine
end

