-- ==== Sys2Proof/Certificates/Slice0/Obligations.lean ====
section
/-! DEFINITION. The statements for the provers, each from numbered rules of spec/; OBLIGATIONS.json lists them. -/

namespace Sys2Proof.Claims

open Sys2Proof.Machine

/-- The configuration has a meaning and the next turn is `t`, with `ts` to follow. -/
abbrev TurnOf (s : State) (t : Turn) (ts : List Turn) : Prop :=
  configRefusal s.cfg = none ∧ s.turns = t :: ts

/-- It is the turn of a host that is not held, its next move is `m`, and `ms` follow. -/
abbrev HostDoes (s : State) (m : HostMove) (ms : List HostMove) (ts : List Turn) : Prop :=
  TurnOf s .host ts ∧ s.ephase = .idle ∧ s.host = m :: ms

/-- The host is about to write the word `w` to CMD, at offset 0x0C. -/
abbrev CommandTurn (s : State) (w : Word) (ms : List HostMove) (ts : List Turn) : Prop :=
  HostDoes s (.write 32 (s.cfg.csrBase + 0x0C) w) ms ts

/-- The sink is about to give answer `a` to the transaction EPHASE names. -/
abbrev SinkGives (s : State) (a : SinkAnswer) (as : List SinkAnswer) (ts : List Turn) : Prop :=
  TurnOf s .sink ts ∧ s.sink = a :: as

/-- The two cases of R99, by the fields of R95 and the column "fields that must be 0" of R97. -/
abbrev IllegalWord (w : Word) : Prop :=
  (w.extractLsb' 0 8 ∉ [0x01#8, 0x02#8, 0x03#8, 0x04#8, 0x05#8, 0x08#8, 0x09#8, 0x0A#8, 0x0B#8]) ∨
  (w.extractLsb' 0 8 ∈ [0x01#8, 0x02#8, 0x03#8, 0x08#8] ∧ w.extractLsb' 8 24 ≠ 0#24) ∨
  (w.extractLsb' 0 8 ∈ [0x04#8, 0x05#8] ∧ w.extractLsb' 8 8 ≠ 0#8) ∨
  (w.extractLsb' 0 8 ∈ [0x09#8, 0x0A#8, 0x0B#8] ∧ w.extractLsb' 9 23 ≠ 0#23)

/-- Every word with this OPC whose bits from `low` up to `low + width - 1` are not all 0 ends ILLEGAL_CMD and changes
nothing else. -/
abbrev ZeroFieldChecked (opc : Byte) (low width : Nat) : Prop :=
  ∀ (w : Word) (s : State), w.extractLsb' 0 8 = opc → w.extractLsb' low width ≠ 0#width →
    issue w s = .next { s with code := .illegalCmd }

/-- The state with no frame held and the four RX registers 0. -/
abbrev Cleared (s : State) : State :=
  { s with rxHdr := 0#32, rxPixcnt := 0#16, rxSysid := 0#16, rxDlen := 0#16, dstate := .idle }

/-- All of what a command can see and change of the block's surroundings is as it was: every byte of TXMEM, the TX
registers, the configuration, the sink log and the agents' pending moves. -/
abbrev SurroundingsKept (s t : State) : Prop :=
  (∀ a, t.txmem.read a = s.txmem.read a) ∧ t.txmem = s.txmem ∧
  t.txChan = s.txChan ∧ t.txKind = s.txKind ∧ t.txCount = s.txCount ∧ t.txSysid = s.txSysid ∧ t.txBase = s.txBase ∧
  t.cfg = s.cfg ∧ t.sinkLog = s.sinkLog ∧ t.host = s.host ∧ t.source = s.source ∧ t.sink = s.sink ∧
  t.turns = s.turns ∧ t.readData = s.readData

/-- The codes R220 lists for each command; a frame runs as part of a RECV. -/
abbrev codesOf : Instr → List Code
  | .recv => [.delivered, .incompleteHeader, .incompletePayload, .ioFailure, .malformed, .unrecognized, .badState]
  | .frameSetPixelColors _ _ => [.delivered, .incompletePayload, .ioFailure, .badState]
  | .frameSystemExclusive _ _ => [.delivered, .incompletePayload, .ioFailure, .malformed, .badState]
  | .done => [.ok, .badState]
  | .skip => [.ok, .badState]
  | .rdpix _ => [.ok, .badState, .badIndex]
  | .rddata _ => [.ok, .badState, .badIndex]
  | .send => [.oversized, .badAddr]
  | .length .tx => [.ok]
  | .isvalid .tx => [.ok]
  | .isbcast .tx => [.ok]
  | .length .rx => [.ok, .badState]
  | .isvalid .rx => [.ok, .badState]
  | .isbcast .rx => [.ok, .badState]

/-- The DSTATEs a command is allowed in (R228). -/
abbrev allowedIn : Instr → List DState
  | .recv => [.idle, .errHeld]
  | .frameSetPixelColors _ _ => [.idle, .errHeld]
  | .frameSystemExclusive _ _ => [.idle, .errHeld]
  | .done => [.delivering]
  | .skip => [.errHeld]
  | .rdpix _ => [.delivering]
  | .rddata _ => [.delivering]
  | .length .rx => [.delivering]
  | .isvalid .rx => [.delivering]
  | .isbcast .rx => [.delivering]
  | .length .tx => [.idle, .delivering, .errHeld]
  | .isvalid .tx => [.idle, .delivering, .errHeld]
  | .isbcast .tx => [.idle, .delivering, .errHeld]
  | .send => [.idle, .delivering, .errHeld]

/-- One of the five commands that write RESULT (R36). -/
abbrev returnsValue : Instr → Bool
  | .rdpix _ => true
  | .rddata _ => true
  | .length _ => true
  | .isvalid _ => true
  | .isbcast _ => true
  | .recv => false
  | .done => false
  | .skip => false
  | .send => false
  | .frameSetPixelColors _ _ => false
  | .frameSystemExclusive _ _ => false

/-- The sink log entries of a SEND whose every transaction answers `ok` (R146): W4 only for a payload that is not
empty (R148). -/
abbrev acceptedLog (chan tag : Byte) (payload : List Byte) : List SinkEntry :=
  let n : Half := BitVec.ofNat 16 payload.length
  [⟨.write [chan], .ok⟩, ⟨.write [tag], .ok⟩, ⟨.write [n.extractLsb' 8 8, n.extractLsb' 0 8], .ok⟩] ++
    (if payload = [] then [] else [⟨.write payload, .ok⟩]) ++ [⟨.flush, .ok⟩]

/-- The reading of every register by its offset (R25 to R46). -/
abbrev csrValues (s : State) : List (Nat × Word) :=
  [(0x00, 0x4F504331#32), (0x04, 7890#32), (0x08, BitVec.ofNat 32 s.cfg.bufCap), (0x0C, 0#32),
   (0x10, s.statusWord), (0x14, s.result), (0x18, BitVec.ofNat 32 s.rxbuf.length), (0x1C, s.rxHdr),
   (0x20, s.rxPixcnt.setWidth 32), (0x24, s.rxSysid.setWidth 32), (0x28, s.rxDlen.setWidth 32),
   (0x30, s.txChan.setWidth 32), (0x34, s.txKind.setWidth 32), (0x38, s.txCount.setWidth 32),
   (0x3C, s.txSysid.setWidth 32), (0x40, s.txBase)]

/-- The RW registers: offset, mask of the field (R42 to R46). -/
abbrev rwFields : List (Nat × Word) :=
  [(0x30, 0x000000FF#32), (0x34, 0x00000001#32), (0x38, 0x00FFFFFF#32), (0x3C, 0x0000FFFF#32), (0x40, 0xFFFFFFFF#32)]

/-- The RO registers' offsets (R25). -/
abbrev roOffsets : List Nat := [0x00, 0x04, 0x08, 0x10, 0x14, 0x18, 0x1C, 0x20, 0x24, 0x28]

/-- A CSR access the block admits: 32 bits, at a mapped offset that is a multiple of 4 (R62). -/
abbrev Admitted (cfg : Config) (bits addr : Nat) : Prop :=
  bits = 32 ∧ cfg.csrBase ≤ addr ∧ (addr - cfg.csrBase) % 4 = 0 ∧ addr - cfg.csrBase ≤ 0x40 ∧
    addr - cfg.csrBase ≠ 0x2C

end Sys2Proof.Claims

open Sys2Proof Sys2Proof.Machine Sys2Proof.Claims

/-! ## Encoding -/

/-- For every well-formed instruction of the table, in its own space, decoding its word gives it back. -/
def Obligations.DecodeOfEncode : Prop :=
  ∀ i : Instr, WellFormed i → decode i.space (encode i) = .ok i

/-- Every word a decoder accepts is the word of the instruction it gives: no bit of an encoding is ignored. -/
def Obligations.EncodeOfDecode : Prop :=
  ∀ (sp : Space) (w : Word) (i : Instr), decode sp w = .ok i → i.space = sp ∧ WellFormed i ∧ encode i = w

/-- R98: the exact words, and a word is legal iff it is a word of one row of the table. -/
def Obligations.CommandLegalIffTableRow : Prop :=
  (∀ w : Word, (∃ i, decodeCmd w = .ok i) ↔ ∃! r, r ∈ cmdRows ∧ w &&& r.mask = r.pattern) ∧
  cmdRows = [.recv, .done, .skip, .rdpix 0, .rddata 0, .send, .length .tx, .isvalid .tx, .isbcast .tx].map Instr.row ∧
  (∀ i ∈ [Instr.recv, .done, .skip, .send], i.row.mask = 0xFFFFFFFF#32) ∧
  (∀ k, (Instr.rdpix k).row.mask = 0x0000FFFF#32 ∧ (Instr.rddata k).row.mask = 0x0000FFFF#32) ∧
  (∀ sel, (Instr.length sel).row.mask = 0xFFFFFEFF#32 ∧ (Instr.isvalid sel).row.mask = 0xFFFFFEFF#32 ∧
    (Instr.isbcast sel).row.mask = 0xFFFFFEFF#32) ∧
  encode .recv = 0x00000001#32 ∧ encode .done = 0x00000002#32 ∧ encode .skip = 0x00000003#32 ∧
  encode .send = 0x00000008#32 ∧
  (∀ k < 65536, encode (.rdpix k) = (BitVec.ofNat 32 k <<< 16) ||| 0x04#32) ∧
  (∀ k < 65536, encode (.rddata k) = (BitVec.ofNat 32 k <<< 16) ||| 0x05#32) ∧
  encode (.length .tx) = 0x00000009#32 ∧ encode (.length .rx) = 0x00000109#32 ∧
  encode (.isvalid .tx) = 0x0000000A#32 ∧ encode (.isvalid .rx) = 0x0000010A#32 ∧
  encode (.isbcast .tx) = 0x0000000B#32 ∧ encode (.isbcast .rx) = 0x0000010B#32

/-- R99: which CMD words are illegal, and that one completes with ILLEGAL_CMD and changes nothing else. -/
def Obligations.IllegalWordOnlySetsCode : Prop :=
  (∀ w : Word, IllegalWord w ↔ ¬ ∃ i, decodeCmd w = .ok i) ∧
  ∀ (s : State) (w : Word) (ms : List HostMove) (ts : List Turn), CommandTurn s w ms ts → IllegalWord w →
    step s = .next { s with turns := ts, host := ms, code := .illegalCmd }

/-- Words written out from the spec's encodings and vectors (R98, R92, DEC and MSG vectors) decode to what they stand
for; a sanity statement. -/
def Obligations.SpecWordsDecode : Prop :=
  decodeCmd 0x00090004#32 = .ok (.rdpix 9) ∧ decodeCmd 0x000A0004#32 = .ok (.rdpix 10) ∧
  decodeCmd 0x00090005#32 = .ok (.rddata 9) ∧ decodeCmd 0x00000008#32 = .ok .send ∧
  decodeCmd 0x00000109#32 = .ok (.length .rx) ∧ decodeCmd 0x00000209#32 = .error .mustBeZero ∧
  decodeCmd 0x00000006#32 = .error .opcode ∧
  decodeFrame 0x0400001E#32 = .ok (.frameSetPixelColors 4#8 30) ∧
  decodeFrame 0x04FF000C#32 = .ok (.frameSystemExclusive 4#8 12) ∧
  decodeFrame 0x07010005#32 = .error .unknownTag

/-- R60: the length field is big-endian, on receive and on send. -/
def Obligations.LengthFieldBigEndian : Prop :=
  (∀ b0 b1 b2 b3 : Byte, hdrPayload (headerWord b0 b1 b2 b3) = b2.toNat * 256 + b3.toNat ∧
    (headerWord b0 b1 b2 b3).extractLsb' 8 8 = b2 ∧ (headerWord b0 b1 b2 b3).extractLsb' 0 8 = b3) ∧
  (∀ (s : State), s.ephase = .w3 → s.txLength ≤ 65535 →
    ∃ b2 b3 : Byte, s.outstanding = some (.write [b2, b3]) ∧ b2.toNat * 256 + b3.toNat = s.txLength) ∧
  (∀ ch tag : Byte, headerBytes (mkHeader ch tag 30) = [ch, tag, 0x00#8, 0x1E#8] ∧
    headerBytes (mkHeader ch tag 12) = [ch, tag, 0x00#8, 0x0C#8])

/-! ## How an instruction comes to run -/

/-- A host turn with a CMD write of a legal word is `exec` of the decoded instruction, at the state in which the host's
move and the turn are taken; nothing else is added around `exec`. -/
def Obligations.StepRunsCommand : Prop :=
  ∀ (s : State) (w : Word) (i : Instr) (ms : List HostMove) (ts : List Turn),
    CommandTurn s w ms ts → decodeCmd w = .ok i → step s = exec i { s with turns := ts, host := ms }

/-- A RECV runs the frame whose header stands at the front of RXBUF, in every state. That a frame has a meaning of its
own is the model's reading (DEDUCED, log entry 3), here and in the three statements about frames. -/
def Obligations.RecvRunsFrontFrame : Prop :=
  ∀ (s : State) (f : Instr), decodeFrameBytes s.rxbuf = .ok f → exec .recv s = exec f s

/-! ## The message model -/

/-- R125, all of it: LENGTH. -/
def Obligations.LengthCommand : Prop :=
  (∀ s : State, exec (.length .tx) s =
    .next { s with
      result := BitVec.ofNat 32 (if s.txKind = 0#1 then 3 * s.txCount.toNat else 2 + s.txCount.toNat)
      code := .ok }) ∧
  (∀ s : State, (if s.txKind = 0#1 then 3 * s.txCount.toNat else 2 + s.txCount.toNat) ≤ 50331645) ∧
  (∀ s : State, s.dstate = .delivering → exec (.length .rx) s =
    .next { s with
      result := BitVec.ofNat 32 (if hdrTag s.rxHdr = 0x00#8 then 3 * s.rxPixcnt.toNat else 2 + s.rxDlen.toNat)
      code := .ok }) ∧
  (∀ s : State, s.dstate ≠ .delivering → exec (.length .rx) s = .next { s with code := .badState }) ∧
  decodeCmd 0x00000009#32 = .ok (.length .tx) ∧ decodeCmd 0x00000109#32 = .ok (.length .rx) ∧
  ZeroFieldChecked 0x09#8 9 23

/-- R127, all of it: ISVALID. -/
def Obligations.IsvalidCommand : Prop :=
  (∀ s : State, exec (.isvalid .tx) s =
    .next { s with
      result := if (if s.txKind = 0#1 then 3 * s.txCount.toNat else 2 + s.txCount.toNat) ≤ 65535 then 1#32 else 0#32
      code := .ok }) ∧
  (∀ s : State, s.dstate = .delivering → exec (.isvalid .rx) s =
    .next { s with
      result := if (if hdrTag s.rxHdr = 0x00#8 then 3 * s.rxPixcnt.toNat else 2 + s.rxDlen.toNat) ≤ 65535
        then 1#32 else 0#32
      code := .ok }) ∧
  (∀ s : State, s.dstate ≠ .delivering → exec (.isvalid .rx) s = .next { s with code := .badState }) ∧
  (∀ s : State, s.Inv → s.dstate = .delivering →
    exec (.isvalid .rx) s = .next { s with result := 1#32, code := .ok }) ∧
  decodeCmd 0x0000000A#32 = .ok (.isvalid .tx) ∧ decodeCmd 0x0000010A#32 = .ok (.isvalid .rx) ∧
  ZeroFieldChecked 0x0A#8 9 23

/-- R129, all of it: ISBCAST. -/
def Obligations.IsbcastCommand : Prop :=
  (∀ s : State, exec (.isbcast .tx) s =
    .next { s with result := if s.txChan = 0#8 then 1#32 else 0#32, code := .ok }) ∧
  (∀ s : State, s.dstate = .delivering → exec (.isbcast .rx) s =
    .next { s with result := if s.rxHdr.extractLsb' 24 8 = 0#8 then 1#32 else 0#32, code := .ok }) ∧
  (∀ s : State, s.dstate ≠ .delivering → exec (.isbcast .rx) s = .next { s with code := .badState }) ∧
  decodeCmd 0x0000000B#32 = .ok (.isbcast .tx) ∧ decodeCmd 0x0000010B#32 = .ok (.isbcast .rx) ∧
  ZeroFieldChecked 0x0B#8 9 23

/-- The three queries, computed from registers, answer what `length`, `is_valid` and `is_broadcast` of the message
value are, for the TX message and for the RX message. -/
def Obligations.QueriesAnswerTheMessage : Prop :=
  ∀ (s : State) (sel : Sel) (m : Message),
    (match sel with | .tx => s.txMessage | .rx => s.rxMessage) = some m →
    exec (.length sel) s = .next { s with result := BitVec.ofNat 32 m.length, code := .ok } ∧
    exec (.isvalid sel) s = .next { s with result := if m.length ≤ 65535 then 1#32 else 0#32, code := .ok } ∧
    exec (.isbcast sel) s = .next { s with result := if m.channel = 0#8 then 1#32 else 0#32, code := .ok }

/-! ## The encoder -/

/-- SEND's first step: a valid message whose payload range lies in TXMEM and is all written starts its first sink
transaction, and nothing else changes. -/
def Obligations.SendStartsFirstWrite : Prop :=
  ∀ s : State,
    (if s.txKind = 0#1 then 3 * s.txCount.toNat else 2 + s.txCount.toNat) ≤ 65535 →
    s.txBase.toNat + (if s.txKind = 0#1 then 3 * s.txCount.toNat else s.txCount.toNat) ≤ s.cfg.txmemSize →
    (∀ j < (if s.txKind = 0#1 then 3 * s.txCount.toNat else s.txCount.toNat),
      s.txmem.read (s.txBase.toNat + j) ≠ none) →
    exec .send s = .next { s with ephase := .w1 }

/-- SEND's checks in their order, each with what it ends in. -/
def Obligations.SendChecksInOrder : Prop :=
  ∀ (s : State) (n m : Nat),
    n = (if s.txKind = 0#1 then 3 * s.txCount.toNat else 2 + s.txCount.toNat) →
    m = (if s.txKind = 0#1 then 3 * s.txCount.toNat else s.txCount.toNat) →
    ZeroFieldChecked 0x08#8 8 24 ∧
    (65535 < n → exec .send s = .next { s with code := .oversized }) ∧
    (n ≤ 65535 → s.cfg.txmemSize < s.txBase.toNat + m → exec .send s = .next { s with code := .badAddr }) ∧
    (n ≤ 65535 → s.txBase.toNat + m ≤ s.cfg.txmemSize →
      (∃ j < m, s.txmem.read (s.txBase.toNat + j) = none) → exec .send s = .fault .uninitTxmem)

/-- The phases of a SEND in flight: what each answer does at each phase. -/
def Obligations.SinkAnswerRunsThePhase : Prop :=
  (∀ (s : State) (as : List SinkAnswer) (ts : List Turn), SinkGives s .ok as ts →
    (s.ephase = .w1 → step s = .next { s with
      turns := ts, sink := as, sinkLog := s.sinkLog ++ [⟨.write [s.txChan], .ok⟩], ephase := .w2 }) ∧
    (s.ephase = .w2 → step s = .next { s with
      turns := ts, sink := as, ephase := .w3
      sinkLog := s.sinkLog ++ [⟨.write [if s.txKind = 0#1 then 0x00#8 else 0xFF#8], .ok⟩] }) ∧
    (s.ephase = .w3 → step s = .next { s with
      turns := ts, sink := as
      ephase := if s.txLength = 0 then .flush else .w4
      sinkLog := s.sinkLog ++ [⟨.write [(BitVec.ofNat 16 s.txLength).extractLsb' 8 8,
        (BitVec.ofNat 16 s.txLength).extractLsb' 0 8], .ok⟩] }) ∧
    (∀ p, s.ephase = .w4 → s.txPayload = some p → step s = .next { s with
      turns := ts, sink := as, sinkLog := s.sinkLog ++ [⟨.write p, .ok⟩], ephase := .flush }) ∧
    (s.ephase = .flush → step s = .next { s with
      turns := ts, sink := as, sinkLog := s.sinkLog ++ [⟨.flush, .ok⟩], ephase := .idle, code := .ok })) ∧
  (∀ (s : State) (k : Nat) (as : List SinkAnswer) (ts : List Turn) (t : SinkTxn), SinkGives s (.fail k) as ts →
    s.outstanding = some t → step s = .next { s with
      turns := ts, sink := as, sinkLog := s.sinkLog ++ [⟨t, .fail k⟩], ephase := .idle, code := .ioFailure })

/-- R141: at every transaction both answers are admitted, with any kept prefix, and so is no answer at all: then the
SEND stays in flight, and the sink log does not show the transaction (that the log shows no transaction before it is
answered is the model's, log entry 21). -/
def Obligations.SinkAnswersAreFree : Prop :=
  ∀ (s : State) (ts : List Turn), s.Inv → TurnOf s .sink ts → s.ephase ≠ .idle →
    (∀ as, ∃ t, step { s with sink := .ok :: as } = .next t ∧ t.sink = as) ∧
    (∀ k as, ∃ t, step { s with sink := .fail k :: as } = .next t ∧ t.sink = as ∧ t.ephase = .idle ∧
      t.code = .ioFailure) ∧
    step { s with sink := [] } = .next { s with turns := ts, sink := [] }

/-- The refinement of SEND: with every answer `ok` it writes exactly the transactions of R146 in order, the sink
stream grows by the encoding of the TX message, and everything else but the agents' taken moves is as before. An empty
payload has four transactions, and the fifth turn of the sink then passes and keeps its answer (the passing of a turn
is the model's, log entry 1). -/
def Obligations.SendWritesTheEncodedMessage : Prop :=
  ∀ (s : State) (m : Message) (ms : List HostMove) (ts : List Turn) (as : List SinkAnswer),
    CommandTurn s 0x00000008#32 ms (.sink :: .sink :: .sink :: .sink :: .sink :: ts) →
    s.txMessage = some m → m.length ≤ 65535 → s.txBase.toNat + s.txMemBytes ≤ s.cfg.txmemSize →
    s.sink = .ok :: .ok :: .ok :: .ok :: .ok :: as →
    ∃ t, runFor 6 s = .next t ∧
      t = { s with
        turns := ts, host := ms, code := .ok, sink := (if m.length = 0 then .ok :: as else as)
        sinkLog := s.sinkLog ++ acceptedLog m.channel m.tag m.payload } ∧
      sinkStream t.sinkLog = sinkStream s.sinkLog ++ m.encode

/-- A SEND that fails can leave any prefix of its frame in the sink stream, from nothing up to the whole frame: for
every length there are answers of the sink that leave just that much. -/
def Obligations.FailedSendLeavesAnyPrefix : Prop :=
  ∀ (s : State) (m : Message) (ms : List HostMove) (ts : List Turn) (n : Nat),
    CommandTurn s 0x00000008#32 ms ts → s.txMessage = some m → m.length ≤ 65535 →
    s.txBase.toNat + s.txMemBytes ≤ s.cfg.txmemSize → n ≤ m.encode.length →
    ∃ (k : Nat) (as : List SinkAnswer) (t : State),
      runFor (k + 1) { s with sink := as, turns := .host :: List.replicate k .sink } = .next t ∧
      t.code = .ioFailure ∧ t.ephase = .idle ∧ sinkStream t.sinkLog = sinkStream s.sinkLog ++ m.encode.take n

/-- A failed SEND is not sticky: the next SEND does what it would have done had that one never been in flight. -/
def Obligations.FailedSendIsNotSticky : Prop :=
  ∀ (s t u : State) (k : Nat) (as : List SinkAnswer) (ts : List Turn), s.ephase ≠ .idle → SinkGives s (.fail k) as ts →
    step s = .next t → exec .send { s with ephase := .idle, sink := as, turns := ts } = .next u →
    exec .send t =
      .next { u with code := (if u.ephase = .w1 then .ioFailure else u.code), sinkLog := t.sinkLog }

/-- R131: LENGTH of the TX message, the frame's length field and the payload bytes of W4 agree for every message SEND
encodes; an invalid message writes no bytes. -/
def Obligations.LengthIsAccurate : Prop :=
  (∀ s t : State, exec .send s = .next t → t.ephase = .w1 →  s.ephase = .idle →
    ∃ n p, exec (.length .tx) s = .next { s with result := BitVec.ofNat 32 n, code := .ok } ∧ n ≤ 65535 ∧
      (∃ b2 b3 : Byte, State.outstanding { t with ephase := .w3 } = some (.write [b2, b3]) ∧
        b2.toNat * 256 + b3.toNat = n) ∧
      State.outstanding { t with ephase := .w4 } = some (.write p) ∧ p.length = n) ∧
  (∀ s : State, 65535 < s.txLength → exec .send s = .next { s with code := .oversized })

/-- R148: an empty payload has no W4, and no SinkWrite that is issued is empty. -/
def Obligations.SinkWritesAreNotEmpty : Prop :=
  (∀ (s : State) (bs : List Byte), s.Inv → s.outstanding = some (.write bs) → bs ≠ []) ∧
  (∀ (s : State) (as : List SinkAnswer) (ts : List Turn), SinkGives s .ok as ts → s.ephase = .w3 →
    s.txLength = 0 → s.txKind = 0#1 ∧ ∃ t, step s = .next t ∧ t.ephase = .flush)

/-- While a SEND is in flight the host has no step: its turn changes nothing but the turns, and its next move waits (the
passing of a held agent's turn is the model's, log entry 1). -/
def Obligations.HostHeldDuringSend : Prop :=
  ∀ (s : State) (ts : List Turn), TurnOf s .host ts → s.ephase ≠ .idle → step s = .next { s with turns := ts }

/-- Until it ends, a SEND in flight keeps its message: no step but reset changes a TX register or TXMEM. -/
def Obligations.SendInFlightKeepsItsMessage : Prop :=
  ∀ s t : State, s.ephase ≠ .idle → step s = .next t → (∀ k ts, s.turns ≠ .reset k :: ts) →
    t.txChan = s.txChan ∧ t.txKind = s.txKind ∧ t.txCount = s.txCount ∧ t.txSysid = s.txSysid ∧
    t.txBase = s.txBase ∧ t.txmem = s.txmem ∧ t.txMessage = s.txMessage ∧ t.host = s.host

/-- R151: SEND, in its CMD write step and in every later step, changes nothing but the sink log, STATUS.CODE and EPHASE
(and takes the sink's answer and the turn). -/
def Obligations.SendTouchesOnlyTheSink : Prop :=
  (∀ s t : State, exec .send s = .next t →
    t = { s with code := t.code, ephase := t.ephase } ∧ ∀ a, t.txmem.read a = s.txmem.read a) ∧
  (∀ (s t : State) (ts : List Turn), TurnOf s .sink ts → step s = .next t →
    t = { s with code := t.code, ephase := t.ephase, sinkLog := t.sinkLog, sink := t.sink, turns := ts } ∧
      (∃ l, t.sinkLog = s.sinkLog ++ l) ∧ ∀ a, t.txmem.read a = s.txmem.read a)

/-- R142: what each kind of transaction adds to the sink stream. -/
def Obligations.SinkStreamOfTheLog : Prop :=
  (∀ log bs, sinkStream (log ++ [⟨.write bs, .ok⟩]) = sinkStream log ++ bs) ∧
  (∀ log bs k, k ≤ bs.length →
    ∃ pre, pre <+: bs ∧ pre.length = k ∧ sinkStream (log ++ [⟨.write bs, .fail k⟩]) = sinkStream log ++ pre) ∧
  (∀ log r, sinkStream (log ++ [⟨.flush, r⟩]) = sinkStream log)

/-! ## The frame decoder -/

/-- R180, with what R182 to R184 make of a complete frame: RECV, case by case on the bytes buffered; in ERRHELD it
reports the same error again; only DONE and SKIP consume. -/
def Obligations.RecvCommand : Prop :=
  (∀ s : State, s.dstate = .delivering → exec .recv s = .next { s with code := .badState }) ∧
  (∀ s : State, s.dstate ≠ .delivering → s.inErr = true →
    exec .recv s = .next { Cleared s with inErr := false, code := .ioFailure }) ∧
  (∀ s : State, s.dstate ≠ .delivering → s.inErr = false → s.rxbuf.length < 4 →
    exec .recv s = .next { Cleared s with code := .incompleteHeader }) ∧
  (∀ (s : State) (ch tag b2 b3 : Byte) (rest : List Byte) (len : Nat), s.dstate ≠ .delivering → s.inErr = false →
    s.rxbuf = ch :: tag :: b2 :: b3 :: rest → len = b2.toNat * 256 + b3.toNat →
    exec .recv s =
      if rest.length < len then
        .next { Cleared s with rxHdr := ch ++ tag ++ b2 ++ b3, code := .incompletePayload }
      else if tag = 0x00#8 then
        .next { Cleared s with
          rxHdr := ch ++ tag ++ b2 ++ b3, rxPixcnt := BitVec.ofNat 16 (len / 3)
          dstate := .delivering, code := .delivered }
      else if tag = 0xFF#8 then
        match len, rest with
        | n + 2, id0 :: id1 :: _ =>
          .next { Cleared s with
            rxHdr := ch ++ tag ++ b2 ++ b3, rxSysid := id0 ++ id1, rxDlen := BitVec.ofNat 16 n
            dstate := .delivering, code := .delivered }
        | _, _ => .next { Cleared s with rxHdr := ch ++ tag ++ b2 ++ b3, dstate := .errHeld, code := .malformed }
      else .next { Cleared s with rxHdr := ch ++ tag ++ b2 ++ b3, dstate := .errHeld, code := .unrecognized }) ∧
  (∀ s t : State, s.R50 → s.dstate = .errHeld → s.inErr = false → exec .recv s = .next t →
    t.dstate = .errHeld ∧ t.rxHdr = s.rxHdr ∧
    t.code = if hdrTag s.rxHdr = 0xFF#8 then .malformed else .unrecognized) ∧
  (∀ (i : Instr) (s t : State), i.space = .cmd → i ≠ .done → i ≠ .skip → exec i s = .next t → t.rxbuf = s.rxbuf) ∧
  decodeCmd 0x00000001#32 = .ok .recv ∧ ZeroFieldChecked 0x01#8 8 24

/-- A complete FRAME.SetPixelColors is delivered; its pixels read out, and DONE consumes it with its trailing bytes. -/
def Obligations.SetPixelColorsFrame : Prop :=
  ∀ (s : State) (ch : Byte) (len : Nat), len < 65536 → s.dstate ≠ .delivering → s.inErr = false →
    4 + len ≤ s.rxbuf.length →
    ∃ t, exec (.frameSetPixelColors ch len) s = .next t ∧
      t = { Cleared s with
        rxHdr := ch ++ 0x00#8 ++ BitVec.ofNat 16 len, rxPixcnt := BitVec.ofNat 16 (len / 3)
        dstate := .delivering, code := .delivered } ∧
      t.rxPixcnt.toNat = len / 3 ∧
      (∀ (i : Nat) (r g b : Byte), i < len / 3 → s.rxbuf[4 + 3 * i]? = some r → s.rxbuf[5 + 3 * i]? = some g →
        s.rxbuf[6 + 3 * i]? = some b →
        exec (.rdpix i) t = .next { t with result := 0x00#8 ++ r ++ g ++ b, code := .ok }) ∧
      exec .done t = .next { Cleared t with rxbuf := s.rxbuf.drop (4 + len), code := .ok }

/-- A complete FRAME.SystemExclusive is delivered with its id and data, or reported MALFORMED with fewer than 2 payload
bytes. -/
def Obligations.SystemExclusiveFrame : Prop :=
  ∀ (s : State) (ch : Byte) (len : Nat), len < 65536 → s.dstate ≠ .delivering → s.inErr = false →
    4 + len ≤ s.rxbuf.length →
    (len < 2 → exec (.frameSystemExclusive ch len) s =
      .next { Cleared s with
        rxHdr := ch ++ 0xFF#8 ++ BitVec.ofNat 16 len, dstate := .errHeld, code := .malformed }) ∧
    (∀ id0 id1 : Byte, 2 ≤ len → s.rxbuf[4]? = some id0 → s.rxbuf[5]? = some id1 →
      ∃ t, exec (.frameSystemExclusive ch len) s = .next t ∧
        t = { Cleared s with
          rxHdr := ch ++ 0xFF#8 ++ BitVec.ofNat 16 len, rxSysid := id0 ++ id1, rxDlen := BitVec.ofNat 16 (len - 2)
          dstate := .delivering, code := .delivered } ∧
        t.rxDlen.toNat = len - 2 ∧
        (∀ (i : Nat) (b : Byte), i < len - 2 → s.rxbuf[6 + i]? = some b →
          exec (.rddata i) t = .next { t with result := b.setWidth 32, code := .ok }) ∧
        exec .done t = .next { Cleared t with rxbuf := s.rxbuf.drop (4 + len), code := .ok })

/-- Where a frame does not complete: a message is delivered, an input error is latched, or not all of it is buffered. -/
def Obligations.FramesWaitOrReport : Prop :=
  ∀ (s : State) (f : Instr) (ch tag : Byte) (len : Nat), len < 65536 →
    (f = .frameSetPixelColors ch len ∧ tag = 0x00#8 ∨ f = .frameSystemExclusive ch len ∧ tag = 0xFF#8) →
    (s.dstate = .delivering → exec f s = .next { s with code := .badState }) ∧
    (s.dstate ≠ .delivering → s.inErr = true →
      exec f s = .next { Cleared s with inErr := false, code := .ioFailure }) ∧
    (s.dstate ≠ .delivering → s.inErr = false → s.rxbuf.length < 4 + len →
      exec f s = .next { Cleared s with rxHdr := ch ++ tag ++ BitVec.ofNat 16 len, code := .incompletePayload })

/-- R190: DONE. -/
def Obligations.DoneCommand : Prop :=
  (∀ s : State, s.dstate = .delivering → 4 + (s.rxHdr.extractLsb' 0 16).toNat ≤ s.rxbuf.length →
    exec .done s =
      .next { Cleared s with rxbuf := s.rxbuf.drop (4 + (s.rxHdr.extractLsb' 0 16).toNat), code := .ok }) ∧
  (∀ s : State, s.R50 → s.dstate = .delivering → 4 + (s.rxHdr.extractLsb' 0 16).toNat ≤ s.rxbuf.length) ∧
  (∀ s : State, s.dstate ≠ .delivering → exec .done s = .next { s with code := .badState }) ∧
  (∀ s t : State, s.dstate = .delivering → exec .done s = .next t → ∀ k,
    exec (.rdpix k) t = .next { t with code := .badState } ∧ exec (.rddata k) t = .next { t with code := .badState } ∧
    exec (.length .rx) t = .next { t with code := .badState } ∧
    exec (.isvalid .rx) t = .next { t with code := .badState } ∧
    exec (.isbcast .rx) t = .next { t with code := .badState }) ∧
  decodeCmd 0x00000002#32 = .ok .done ∧ ZeroFieldChecked 0x02#8 8 24

/-- R195: SKIP; after an IO_FAILURE RECV DSTATE is IDLE, and a further RECV completes with the same error again. -/
def Obligations.SkipCommand : Prop :=
  (∀ s : State, s.dstate = .errHeld → 4 + (s.rxHdr.extractLsb' 0 16).toNat ≤ s.rxbuf.length →
    exec .skip s =
      .next { Cleared s with rxbuf := s.rxbuf.drop (4 + (s.rxHdr.extractLsb' 0 16).toNat), code := .ok }) ∧
  (∀ s : State, s.R50 → s.dstate = .errHeld → 4 + (s.rxHdr.extractLsb' 0 16).toNat ≤ s.rxbuf.length) ∧
  (∀ s : State, s.dstate ≠ .errHeld → exec .skip s = .next { s with code := .badState }) ∧
  (∀ s : State, s.R50 → s.dstate = .errHeld → s.inErr = true →
    ∃ t u, exec .recv s = .next t ∧ t.code = .ioFailure ∧ t.dstate = .idle ∧
      exec .skip t = .next { t with code := .badState } ∧
      exec .recv t = .next u ∧ u.dstate = .errHeld ∧ u.rxHdr = s.rxHdr ∧
      u.code = if hdrTag s.rxHdr = 0xFF#8 then .malformed else .unrecognized) ∧
  decodeCmd 0x00000003#32 = .ok .skip ∧ ZeroFieldChecked 0x03#8 8 24

/-- R200: RDPIX. -/
def Obligations.RdpixCommand : Prop :=
  (∀ (s : State) (i : Nat), s.dstate ≠ .delivering → exec (.rdpix i) s = .next { s with code := .badState }) ∧
  (∀ (s : State) (i : Nat), s.dstate = .delivering → s.rxPixcnt.toNat ≤ i →
    exec (.rdpix i) s = .next { s with code := .badIndex }) ∧
  (∀ (s : State) (i : Nat) (r g b : Byte), s.dstate = .delivering → i < s.rxPixcnt.toNat →
    s.rxbuf[4 + 3 * i]? = some r → s.rxbuf[5 + 3 * i]? = some g → s.rxbuf[6 + 3 * i]? = some b →
    exec (.rdpix i) s = .next { s with result := 0x00#8 ++ r ++ g ++ b, code := .ok }) ∧
  (∀ (s : State) (i : Nat), s.Inv → s.dstate = .delivering → i < s.rxPixcnt.toNat →
    ∃ r g b : Byte, s.rxbuf[4 + 3 * i]? = some r ∧ s.rxbuf[5 + 3 * i]? = some g ∧ s.rxbuf[6 + 3 * i]? = some b) ∧
  (∀ (s : State) (i : Nat), s.Inv → s.dstate = .delivering → hdrTag s.rxHdr = 0xFF#8 →
    exec (.rdpix i) s = .next { s with code := .badIndex }) ∧
  (∀ i < 65536, decodeCmd ((BitVec.ofNat 32 i <<< 16) ||| 0x04#32) = .ok (.rdpix i)) ∧ ZeroFieldChecked 0x04#8 8 8

/-- R202: RDDATA. -/
def Obligations.RddataCommand : Prop :=
  (∀ (s : State) (i : Nat), s.dstate ≠ .delivering → exec (.rddata i) s = .next { s with code := .badState }) ∧
  (∀ (s : State) (i : Nat), s.dstate = .delivering → s.rxDlen.toNat ≤ i →
    exec (.rddata i) s = .next { s with code := .badIndex }) ∧
  (∀ (s : State) (i : Nat) (b : Byte), s.dstate = .delivering → i < s.rxDlen.toNat → s.rxbuf[6 + i]? = some b →
    exec (.rddata i) s = .next { s with result := b.setWidth 32, code := .ok }) ∧
  (∀ (s : State) (i : Nat), s.Inv → s.dstate = .delivering → i < s.rxDlen.toNat →
    ∃ b : Byte, s.rxbuf[6 + i]? = some b) ∧
  (∀ (s : State) (i : Nat), s.Inv → s.dstate = .delivering → hdrTag s.rxHdr = 0x00#8 →
    exec (.rddata i) s = .next { s with code := .badIndex }) ∧
  (∀ i < 65536, decodeCmd ((BitVec.ofNat 32 i <<< 16) ||| 0x05#32) = .ok (.rddata i)) ∧ ZeroFieldChecked 0x05#8 8 8

/-- R185: a RECV's outcome depends on INERR and the buffered bytes alone, and not on how they were split into pushes or
on earlier RECVs that were incomplete. -/
def Obligations.RecvIndependentOfChunking : Prop :=
  (∀ s s' t : State, s.dstate ≠ .delivering → s'.dstate ≠ .delivering → s.inErr = s'.inErr → s.rxbuf = s'.rxbuf →
    exec .recv s = .next t →
    exec .recv s' = .next { s' with
      code := t.code, dstate := t.dstate, inErr := t.inErr, rxHdr := t.rxHdr, rxPixcnt := t.rxPixcnt
      rxSysid := t.rxSysid, rxDlen := t.rxDlen }) ∧
  (∀ s : State, s.dstate ≠ .delivering → s.inErr = false →
    (∀ h, headerOf s.rxbuf = some h → s.rxbuf.length < 4 + (h.extractLsb' 0 16).toNat) →
    ∃ t, exec .recv s = .next t ∧ (t.code = .incompleteHeader ∨ t.code = .incompletePayload) ∧
      t.rxbuf = s.rxbuf ∧ t.dstate = .idle) ∧
  (∀ (s t : State) (bs : List Byte), s.dstate ≠ .delivering → s.inErr = false → exec .recv s = .next t →
    (t.code = .incompleteHeader ∨ t.code = .incompletePayload) →
    exec .recv { t with rxbuf := t.rxbuf ++ bs } = exec .recv { s with rxbuf := s.rxbuf ++ bs })

/-- A full RXBUF always holds a complete frame at its front, so RECV gives no INCOMPLETE code on it. -/
def Obligations.FullBufferHoldsAFrame : Prop :=
  ∀ s : State, configRefusal s.cfg = none → s.rxbuf.length = s.cfg.bufCap → s.dstate ≠ .delivering →
    ∃ t, exec .recv s = .next t ∧
      (s.inErr = true → t.code = .ioFailure ∧ t.inErr = false ∧ t.rxbuf = s.rxbuf ∧ t.dstate ≠ .delivering) ∧
      (s.inErr = false → t.code = .delivered ∨ t.code = .malformed ∨ t.code = .unrecognized) ∧
      ∀ u, (t.dstate = .delivering ∧ exec .done t = .next u ∨ t.dstate = .errHeld ∧ exec .skip t = .next u) →
        u.code = .ok ∧ u.rxbuf.length < u.cfg.bufCap

/-- RECV of the bytes a valid message encodes to, whatever follows them, delivers that message. -/
def Obligations.RecvDeliversTheEncodedMessage : Prop :=
  ∀ (s : State) (m : Message) (rest : List Byte), m.length ≤ 65535 → s.dstate ≠ .delivering → s.inErr = false →
    s.rxbuf = m.encode ++ rest →
    ∃ t, exec .recv s = .next t ∧ t.code = .delivered ∧ t.dstate = .delivering ∧ t.rxMessage = some m ∧
      t.rxbuf = s.rxbuf ∧ exec .done t = .next { Cleared t with rxbuf := rest, code := .ok }

/-- R132, the round trip over steps: SEND a message with every answer `ok`, push the bytes the sink accepted, RECV.
For an empty payload the fifth turn of the sink passes (the passing of a turn is the model's, log entry 1). -/
def Obligations.RoundTrip : Prop :=
  ∀ (s : State) (m : Message) (ms : List HostMove) (mvs : List SourceMove) (as : List SinkAnswer) (ts : List Turn),
    CommandTurn s 0x00000008#32 (.write 32 (s.cfg.csrBase + 0x0C) 0x00000001#32 :: ms)
      (List.replicate 5 .sink ++ (List.replicate m.encode.length .source ++ .host :: ts)) →
    s.txMessage = some m → m.length ≤ 65535 → s.txBase.toNat + s.txMemBytes ≤ s.cfg.txmemSize →
    s.sink = .ok :: .ok :: .ok :: .ok :: .ok :: as →
    s.source = m.encode.map .push ++ mvs → s.rxbuf = [] → s.dstate = .idle → s.inErr = false →
    ∃ t, runFor (6 + m.encode.length + 1) s = .next t ∧
      sinkStream t.sinkLog = sinkStream s.sinkLog ++ m.encode ∧
      t.code = .delivered ∧ t.rxMessage = some m ∧ t.turns = ts

/-! ## Frames of the instructions -/

/-- What the decoder's commands and the frames leave unchanged: RECV and a frame write STATUS and the RX registers and
keep every byte of RXBUF and RESULT; DONE and SKIP besides consume from the front; no one of them touches the TX
registers, TXMEM, the encoder, the sink log or an agent. -/
def Obligations.DecoderCommandsFrame : Prop :=
  ∀ (i : Instr) (s t : State), exec i s = .next t →
    match i with
    | .recv | .frameSetPixelColors _ _ | .frameSystemExclusive _ _ =>
      t = { s with
        code := t.code, dstate := t.dstate, inErr := t.inErr, rxHdr := t.rxHdr, rxPixcnt := t.rxPixcnt
        rxSysid := t.rxSysid, rxDlen := t.rxDlen } ∧ SurroundingsKept s t
    | .done | .skip =>
      t = { s with
        code := t.code, dstate := t.dstate, rxHdr := t.rxHdr, rxPixcnt := t.rxPixcnt, rxSysid := t.rxSysid
        rxDlen := t.rxDlen, rxbuf := t.rxbuf } ∧ t.rxbuf <:+ s.rxbuf ∧ SurroundingsKept s t
    | _ => True

/-- What the commands that return a value leave unchanged: everything but CODE and RESULT, and RESULT too where they do
not end OK. -/
def Obligations.ReadAndQueryFrame : Prop :=
  ∀ (i : Instr) (s t : State), returnsValue i = true → exec i s = .next t →
    t = { s with code := t.code, result := t.result } ∧ (t.code ≠ .ok → t.result = s.result) ∧ SurroundingsKept s t

/-! ## Rules about the whole machine -/

/-- R50: the five invariants hold between any two steps. -/
def Obligations.InvariantsOfR50Kept : Prop :=
  ∀ s t : State, s.R50 → step s = .next t → t.R50

/-- Every step keeps the model's whole invariant: R50, the RX registers describe the held frame, a SEND in flight is of
a valid, readable message, TXMEM is canonical and within its size. -/
def Obligations.InvariantKept : Prop :=
  ∀ s t : State, s.Inv → step s = .next t → t.Inv

/-- The invariant holds after power-on, at the configuration log entry 2 chooses. -/
def Obligations.InvariantAtReset : Prop :=
  State.reset.Inv

/-- From a state that meets the invariant no step raises the INVARIANT fault, and each other fault has the cause R233
names (or is the model's own, of a host write outside TXMEM: log entry 7). -/
def Obligations.FaultsHaveTheirCause : Prop :=
  ∀ (s : State) (f : Fault), s.Inv → step s = .fault f →
    ∃ ms ts, ∃ m, HostDoes s m ms ts ∧
      ((f = .busError ∧ ∃ bits addr, ¬ Admitted s.cfg bits addr ∧
          (m = .read bits addr ∨ ∃ v, m = .write bits addr v)) ∨
       (f = .uninitTxmem ∧ m = .write 32 (s.cfg.csrBase + 0x0C) 0x00000008#32 ∧
          ∃ a, s.txBase.toNat ≤ a ∧ a < s.txBase.toNat + s.txMemBytes ∧ s.txmem.read a = none) ∨
       (f = .txmemRange ∧ ∃ addr bytes, m = .txw addr bytes ∧ s.cfg.txmemSize < addr + bytes.length))

/-- A configuration is refused exactly where R8, R235 or a bound of R9 and R29 excludes it (that the bounds refuse is the
model's, log entry 10, and so is that a configuration with no host does not, log entry 22), no step from one that is not
refused is refused, and no step changes the configuration. -/
def Obligations.OnlyBadConfigurationsRefused : Prop :=
  (∀ s : State, (∃ r, step s = .refused r) ↔
    (s.cfg.bufCap < 65539 ∨ 1 < s.cfg.hosts ∨ 2 ^ 32 - 1 < s.cfg.bufCap ∨ 2 ^ 32 < s.cfg.txmemSize)) ∧
  (∀ s t : State, step s = .next t → t.cfg = s.cfg)

/-- R53 and R251: the values after power-on, what a read at each offset gives among them; BUFCAP is R8's default. -/
def Obligations.PowerOnState : Prop :=
  (∀ p ∈ [(0x00, 0x4F504331#32), (0x04, 0x00001ED2#32), (0x08, 65539#32), (0x0C, 0#32), (0x10, 0#32), (0x14, 0#32),
      (0x18, 0#32), (0x1C, 0#32), (0x20, 0#32), (0x24, 0#32), (0x28, 0#32), (0x30, 0#32), (0x34, 0#32), (0x38, 0#32),
      (0x3C, 0#32), (0x40, 0#32)],
    (csrAt p.1).map (State.csrRead State.reset) = some p.2) ∧
  State.reset.code = .ok ∧ State.reset.dstate = .idle ∧ State.reset.inErr = false ∧ State.reset.rxbuf = [] ∧
  State.reset.ephase = .idle ∧ ∀ a, State.reset.txmem.read a = none

/-- One reset step from any state, a SEND in flight or not; how the sink log shows a transaction that reset abandons is
the model's (log entry 14). -/
def Obligations.ResetStep : Prop :=
  ∀ (s : State) (k : Nat) (ts : List Turn), TurnOf s (.reset k) ts →
    ∃ t, step s = .next t ∧
      t = { State.reset with
        cfg := s.cfg, txmem := s.txmem, host := s.host, source := s.source, sink := s.sink, turns := ts
        readData := s.readData, sinkLog := t.sinkLog } ∧
      t.statusWord = 0#32 ∧
      (s.ephase = .idle → t.sinkLog = s.sinkLog) ∧
      (∀ x, s.outstanding = some x → t.sinkLog = s.sinkLog ++ [⟨x, .abandoned k⟩]) ∧
      (∀ bs, s.outstanding = some (.write bs) → sinkStream t.sinkLog = sinkStream s.sinkLog ++ bs.take k)

/-- R23: the DSTATE table, of every command; every other step but reset leaves DSTATE. -/
def Obligations.DstateTransitions : Prop :=
  (∀ s t : State, exec .recv s = .next t →
    (s.dstate = .delivering → t.code = .badState ∧ t.dstate = .delivering) ∧
    (s.dstate ≠ .delivering →
      (t.code = .delivered ∧ t.dstate = .delivering) ∨
      ((t.code = .malformed ∨ t.code = .unrecognized) ∧ t.dstate = .errHeld) ∨
      ((t.code = .incompleteHeader ∨ t.code = .incompletePayload ∨ t.code = .ioFailure) ∧ t.dstate = .idle)) ∧
    (s.R50 → s.dstate = .errHeld →
      (t.code = .ioFailure ∧ t.dstate = .idle) ∨
      (t.dstate = .errHeld ∧
        t.code = if hdrTag s.rxHdr = 0xFF#8 then .malformed else .unrecognized))) ∧
  (∀ s t : State, exec .done s = .next t → t.dstate = if s.dstate = .delivering then .idle else s.dstate) ∧
  (∀ s t : State, exec .skip s = .next t → t.dstate = if s.dstate = .errHeld then .idle else s.dstate) ∧
  (∀ (i : Instr) (s t : State), i.space = .cmd → i ≠ .recv → i ≠ .done → i ≠ .skip → exec i s = .next t →
    t.dstate = s.dstate) ∧
  (∀ s t : State, step s = .next t → (∀ w ms ts, ¬ CommandTurn s w ms ts) → (∀ k ts, s.turns ≠ .reset k :: ts) →
    t.dstate = s.dstate) ∧
  (∀ (s t : State) (k : Nat) (ts : List Turn), TurnOf s (.reset k) ts → step s = .next t → t.dstate = .idle)

/-- R36: RESULT changes only by a command of the five that succeeds, and by reset. -/
def Obligations.ResultOnlyFromReads : Prop :=
  (∀ s t : State, step s = .next t → t.result ≠ s.result →
    (∃ k ts, s.turns = .reset k :: ts ∧ t.result = 0#32) ∨
    ∃ w i ms ts, CommandTurn s w ms ts ∧ decodeCmd w = .ok i ∧ returnsValue i = true ∧ t.code = .ok) ∧
  State.reset.result = 0#32

/-- R35: what sets and clears the input-error latch. -/
def Obligations.InputErrorLatch : Prop :=
  (∀ s t : State, step s = .next t → t.inErr ≠ s.inErr →
    (t.inErr = true ∧ ∃ ts ms, s.turns = .source :: ts ∧ s.source = .error :: ms) ∨
    (t.inErr = false ∧ t.code = .ioFailure ∧ ∃ ms ts, CommandTurn s 0x00000001#32 ms ts) ∨
    (t.inErr = false ∧ ∃ k ts, s.turns = .reset k :: ts)) ∧
  (∀ (s : State) (ms : List SourceMove) (ts : List Turn), TurnOf s .source ts → s.source = .error :: ms →
    step s = .next { s with source := ms, turns := ts, inErr := true }) ∧
  (∀ s t : State, exec .recv s = .next t → t.code = .ioFailure → t.inErr = false) ∧
  (∀ (s t : State) (k : Nat) (ts : List Turn), TurnOf s (.reset k) ts → step s = .next t → t.inErr = false)

/-- STATUS.CODE changes only when a command completes (in the host's CMD write or, for SEND, at a sink answer) or at
reset. -/
def Obligations.CodeChangesOnlyAtCompletion : Prop :=
  ∀ s t : State, step s = .next t → t.code ≠ s.code →
    (∃ w ms ts, CommandTurn s w ms ts) ∨
    (s.ephase ≠ .idle ∧ t.ephase = .idle ∧ ∃ a as ts, SinkGives s a as ts) ∨
    (∃ k ts, s.turns = .reset k :: ts)

/-- The codes each command can end with, as R220's table has them; SEND ends in its own step only with OVERSIZED or
BAD_ADDR, and in flight it leaves CODE until a sink answer ends it with OK or IO_FAILURE. -/
def Obligations.CodesOfEachCommand : Prop :=
  (∀ (i : Instr) (s t : State), exec i s = .next t →
    t.code ∈ codesOf i ∨ (i = .send ∧ t.code = s.code ∧ t.ephase = .w1)) ∧
  (∀ (s t : State) (a : SinkAnswer) (as : List SinkAnswer) (ts : List Turn), SinkGives s a as ts →
    s.ephase ≠ .idle → step s = .next t →
    (t.ephase ≠ .idle ∧ t.code = s.code) ∨
    (t.ephase = .idle ∧ t.code = .ok ∧ s.ephase = .flush ∧ a = .ok) ∨
    (t.ephase = .idle ∧ t.code = .ioFailure ∧ ∃ k, a = .fail k))

/-- R228: BAD_STATE is given exactly where DSTATE is not one the command is allowed in, and SEND does not read DSTATE.
A SEND that starts leaves CODE, so of SEND alone the premise says that CODE was not BAD_STATE before it. -/
def Obligations.BadStateIffNotAllowed : Prop :=
  (∀ (i : Instr) (s : State), i.space = .cmd → s.dstate ∉ allowedIn i →
    exec i s = .next { s with code := .badState }) ∧
  (∀ (i : Instr) (s t : State), i.space = .cmd → s.dstate ∈ allowedIn i → (i = .send → s.code ≠ .badState) →
    exec i s = .next t → t.code ≠ .badState) ∧
  (∀ (s t : State) (d : DState), exec .send s = .next t → exec .send { s with dstate := d } = .next { t with dstate := d })

/-- R77: the bytes of a delivered frame stay at the front of RXBUF, and the message stays delivered, through every step
but DONE and reset. -/
def Obligations.DeliveredFrameStays : Prop :=
  ∀ s t : State, s.R50 → s.dstate = .delivering → step s = .next t →
    (∀ ms ts, ¬ CommandTurn s 0x00000002#32 ms ts) → (∀ k ts, s.turns ≠ .reset k :: ts) →
    t.dstate = .delivering ∧ t.rxHdr = s.rxHdr ∧ t.rxPixcnt = s.rxPixcnt ∧ t.rxSysid = s.rxSysid ∧
    t.rxDlen = s.rxDlen ∧
    t.rxbuf.take (4 + (s.rxHdr.extractLsb' 0 16).toNat) = s.rxbuf.take (4 + (s.rxHdr.extractLsb' 0 16).toNat)

/-- An input push, where it is enabled and where it is held (a held source's turn passes: the model's, log entry 1). -/
def Obligations.InputPush : Prop :=
  ∀ (s : State) (b : Byte) (ms : List SourceMove) (ts : List Turn), TurnOf s .source ts → s.source = .push b :: ms →
    (s.rxbuf.length < s.cfg.bufCap →
      ∃ t, step s = .next t ∧ t = { s with source := ms, turns := ts, rxbuf := t.rxbuf } ∧
        t.rxbuf.length = s.rxbuf.length + 1 ∧ t.rxbuf[t.rxbuf.length - 1]? = some b ∧
        ∀ j < s.rxbuf.length, t.rxbuf[j]? = s.rxbuf[j]?) ∧
    (¬ s.rxbuf.length < s.cfg.bufCap → step s = .next { s with turns := ts })

/-! ## CSR space and TXMEM -/

/-- An access that is not 32 bits at a mapped offset that is a multiple of 4 is a bus error (an address below CSR_BASE
too: the model's, log entry 13); any other reaches a register. -/
def Obligations.BusErrors : Prop :=
  ∀ (s : State) (bits addr : Nat) (ms : List HostMove) (ts : List Turn),
    (HostDoes s (.read bits addr) ms ts →
      (¬ Admitted s.cfg bits addr → step s = .fault .busError) ∧
      (Admitted s.cfg bits addr → ∃ t, step s = .next t)) ∧
    (∀ v, HostDoes s (.write bits addr v) ms ts →
      (¬ Admitted s.cfg bits addr → step s = .fault .busError) ∧
      (Admitted s.cfg bits addr → step s ≠ .fault .busError))

/-- Every register reads as its rule says, and a read changes nothing of the block. -/
def Obligations.CsrReadValues : Prop :=
  ∀ (s : State) (p : Nat × Word) (ms : List HostMove) (ts : List Turn), p ∈ csrValues s →
    HostDoes s (.read 32 (s.cfg.csrBase + p.1)) ms ts →
    step s = .next { s with turns := ts, host := ms, readData := some p.2 }

/-- R26: reserved bits, RO and RW writes, reads of CMD. -/
def Obligations.CsrFieldAccess : Prop :=
  (∀ (s : State) (o : Nat) (v : Word) (ms : List HostMove) (ts : List Turn), o ∈ roOffsets →
    HostDoes s (.write 32 (s.cfg.csrBase + o) v) ms ts → step s = .next { s with turns := ts, host := ms }) ∧
  (∀ (s : State) (o : Nat) (mask v : Word) (ms : List HostMove) (ts : List Turn), (o, mask) ∈ rwFields →
    HostDoes s (.write 32 (s.cfg.csrBase + o) v) ms ts →
    ∃ t, step s = .next t ∧ (o, v &&& mask) ∈ csrValues t ∧
      (∀ o' x, o' ≠ o → (o', x) ∈ csrValues s → (o', x) ∈ csrValues t) ∧
      t.rxbuf = s.rxbuf ∧ t.ephase = s.ephase ∧ t.txmem = s.txmem ∧ t.sinkLog = s.sinkLog) ∧
  (∀ (s : State) (ms : List HostMove) (ts : List Turn), HostDoes s (.read 32 (s.cfg.csrBase + 0x0C)) ms ts →
    step s = .next { s with turns := ts, host := ms, readData := some 0#32 }) ∧
  (∀ s : State, s.statusWord.extractLsb' 12 20 = 0#20 ∧ (s.rxPixcnt.setWidth 32).extractLsb' 16 16 = 0#16 ∧
    (s.rxSysid.setWidth 32).extractLsb' 16 16 = 0#16 ∧ (s.rxDlen.setWidth 32).extractLsb' 16 16 = 0#16)

/-- R34, with the fields of STATUS in their places and the number R220 gives each result code. -/
def Obligations.StatusFields : Prop :=
  (Code.bits .ok = 0x00#8 ∧ Code.bits .delivered = 0x01#8 ∧ Code.bits .incompleteHeader = 0x02#8 ∧
    Code.bits .incompletePayload = 0x03#8 ∧ Code.bits .ioFailure = 0x10#8 ∧ Code.bits .malformed = 0x11#8 ∧
    Code.bits .unrecognized = 0x12#8 ∧ Code.bits .oversized = 0x13#8 ∧ Code.bits .illegalCmd = 0x20#8 ∧
    Code.bits .badState = 0x21#8 ∧ Code.bits .badIndex = 0x22#8 ∧ Code.bits .badAddr = 0x23#8) ∧
  ∀ s : State,
    (s.statusWord.getLsbD 10 = true ↔ s.code.bits = 0x11#8 ∨ s.code.bits = 0x12#8) ∧
    s.statusWord.extractLsb' 0 8 = s.code.bits ∧
    (s.statusWord.extractLsb' 8 2 = 0#2 ↔ s.dstate = .idle) ∧
    (s.statusWord.extractLsb' 8 2 = 1#2 ↔ s.dstate = .delivering) ∧
    (s.statusWord.extractLsb' 8 2 = 2#2 ↔ s.dstate = .errHeld) ∧
    s.statusWord.getLsbD 11 = s.inErr

/-- A host write to TXMEM within its size: each byte reads back, every other address reads as before, the canonical
form is kept and nothing else changes. -/
def Obligations.HostWritesTxmem : Prop :=
  ∀ (s : State) (addr : Nat) (bytes : List Byte) (ms : List HostMove) (ts : List Turn),
    HostDoes s (.txw addr bytes) ms ts → addr + bytes.length ≤ s.cfg.txmemSize →
    ∃ t, step s = .next t ∧ t = { s with turns := ts, host := ms, txmem := t.txmem } ∧
      (∀ j < bytes.length, t.txmem.read (addr + j) = bytes[j]?) ∧
      (∀ a, a < addr ∨ addr + bytes.length ≤ a → t.txmem.read a = s.txmem.read a) ∧
      (s.txmemOk → t.txmemOk)
end

