-- ==== Sys2Proof/Laws/Header.lean ====
section
/-! SUPPORT. Bit fields as numbers, and the fields of a header word, built from its bytes or from its parts. -/

namespace Sys2Proof

/-- A concatenation as a number. -/
theorem toNat_append_eq {m n : Nat} (x : BitVec m) (y : BitVec n) :
    (x ++ y).toNat = x.toNat * 2 ^ n + y.toNat := by
  rw [BitVec.toNat_append, ← Nat.shiftLeft_add_eq_or_of_lt y.isLt, Nat.shiftLeft_eq]

/-- A field as a number. -/
theorem toNat_field {w : Nat} (x : BitVec w) (lo len : Nat) :
    (x.extractLsb' lo len).toNat = x.toNat / 2 ^ lo % 2 ^ len := by
  rw [BitVec.extractLsb'_toNat, Nat.shiftRight_eq_div_pow]

/-- A header word as a number. -/
theorem toNat_headerWord (a b c d : Byte) :
    (headerWord a b c d).toNat = a.toNat * 16777216 + b.toNat * 65536 + c.toNat * 256 + d.toNat := by
  simp only [headerWord, toNat_append_eq]
  omega

theorem hdrChan_headerWord (a b c d : Byte) : hdrChan (headerWord a b c d) = a := by
  apply BitVec.eq_of_toNat_eq
  simp only [hdrChan, toNat_field, toNat_headerWord]
  omega

theorem hdrTag_headerWord (a b c d : Byte) : hdrTag (headerWord a b c d) = b := by
  apply BitVec.eq_of_toNat_eq
  simp only [hdrTag, toNat_field, toNat_headerWord]
  omega

/-- A header word built from its parts, as a number. -/
theorem toNat_mkHeader (ch tag : Byte) (len : Nat) :
    (mkHeader ch tag len).toNat = ch.toNat * 16777216 + tag.toNat * 65536 + len % 65536 := by
  simp only [mkHeader, toNat_append_eq, BitVec.toNat_ofNat]
  omega

theorem hdrChan_mkHeader (ch tag : Byte) (len : Nat) : hdrChan (mkHeader ch tag len) = ch := by
  apply BitVec.eq_of_toNat_eq
  simp only [hdrChan, toNat_field, toNat_mkHeader]
  omega

theorem hdrTag_mkHeader (ch tag : Byte) (len : Nat) : hdrTag (mkHeader ch tag len) = tag := by
  apply BitVec.eq_of_toNat_eq
  simp only [hdrTag, toNat_field, toNat_mkHeader]
  omega

theorem hdrPayload_mkHeader (ch tag : Byte) {len : Nat} (h : len < 65536) :
    hdrPayload (mkHeader ch tag len) = len := by
  simp only [hdrPayload, toNat_field, toNat_mkHeader]
  omega

theorem hdrPayload_lt (h : Word) : hdrPayload h < 65536 := (h.extractLsb' 0 16).isLt

/-- A word is its fields. -/
theorem mkHeader_fields (h : Word) : mkHeader (hdrChan h) (hdrTag h) (hdrPayload h) = h := by
  apply BitVec.eq_of_toNat_eq
  simp only [toNat_mkHeader, hdrChan, hdrTag, hdrPayload, toNat_field]
  omega

/-- The header at the front of a frame's bytes is its header word. -/
theorem headerOf_headerBytes (h : Word) (rest : List Byte) : headerOf (headerBytes h ++ rest) = some h := by
  simp only [headerBytes, List.cons_append, List.nil_append, headerOf, Option.some.injEq]
  apply BitVec.eq_of_toNat_eq
  simp only [toNat_headerWord, toNat_field]
  omega

/-- There is no header iff fewer than 4 bytes are there. -/
theorem headerOf_eq_none {bs : List Byte} : headerOf bs = none ↔ bs.length < 4 := by
  match bs with
  | [] | [_] | [_, _] | [_, _, _] => simp [headerOf]
  | _ :: _ :: _ :: _ :: _ => simp [headerOf]

/-- Bytes that join at the tail do not change a header that is there. -/
theorem headerOf_append {bs : List Byte} {h : Word} (hb : headerOf bs = some h) (rest : List Byte) :
    headerOf (bs ++ rest) = some h := by
  match bs with
  | [] | [_] | [_, _] | [_, _, _] => simp [headerOf] at hb
  | _ :: _ :: _ :: _ :: _ => simpa [headerOf] using hb

end Sys2Proof
end

