-- ==== Sys2Proof/Laws/Memory.lean ====
section
/-! SUPPORT. Byte memory: read after write, the canonical form, and reading a run of bytes. -/

namespace Sys2Proof.Machine

@[simp] theorem Memory.read_nil (a : Nat) : Memory.read [] a = none := rfl

/-- A read after a write: the byte written there, what was there before elsewhere. -/
theorem Memory.read_write (m : Memory) (a x : Nat) (b : Byte) :
    (m.write a b).read x = if a = x then some b else m.read x := by
  induction m with
  | nil => simp [Memory.write, Memory.read]
  | cons c m ih =>
    unfold Memory.write
    split
    · simp [Memory.read]
    · split
      · rename_i h
        by_cases hx : a = x <;> simp [Memory.read, h, hx]
      · rename_i h
        by_cases hx : c.1 = x
        · subst hx
          simp [Memory.read, Ne.symm h]
        · simp [Memory.read, hx, ih]

/-- A write lists the address written and no other new one. -/
theorem Memory.mem_write (m : Memory) (a : Nat) (b : Byte) (c : Host.Cell) (h : c ∈ m.write a b) :
    c.1 = a ∨ c ∈ m := by
  induction m with
  | nil => simp [Memory.write] at h; simp [h]
  | cons d m ih =>
    unfold Memory.write at h
    split at h
    · rcases List.mem_cons.1 h with rfl | h
      · simp
      · exact .inr h
    · split at h
      · rcases List.mem_cons.1 h with rfl | h
        · simp
        · exact .inr (List.mem_cons_of_mem _ h)
      · rcases List.mem_cons.1 h with rfl | h
        · simp
        · exact (ih h).imp id (List.mem_cons_of_mem _)

/-- A write keeps the addresses strictly rising. -/
theorem Memory.wf_write (m : Memory) (a : Nat) (b : Byte) (h : m.wf) : (m.write a b).wf := by
  induction m with
  | nil => simp [Memory.write, Memory.wf]
  | cons c m ih =>
    obtain ⟨hc, hm⟩ := List.pairwise_cons.1 h
    unfold Memory.write
    split
    · rename_i ha
      refine List.pairwise_cons.2 ⟨fun d hd => ?_, h⟩
      rcases List.mem_cons.1 hd with rfl | hd
      · exact ha
      · exact lt_trans ha (hc d hd)
    · split
      · rename_i h'
        exact List.pairwise_cons.2 ⟨fun d hd => h' ▸ hc d hd, hm⟩
      · refine List.pairwise_cons.2 ⟨fun d hd => ?_, ih hm⟩
        rcases Memory.mem_write m a b d hd with hd | hd
        · omega
        · exact hc d hd

/-- A write at an address that exists lists only addresses that exist. -/
theorem Memory.below_write (m : Memory) (a n : Nat) (b : Byte) (h : m.below n) (ha : a < n) :
    (m.write a b).below n := fun c hc =>
  (m.mem_write a b c hc).elim (fun e => e ▸ ha) (h c)

theorem Memory.wf_writeBytes (bs : List Byte) : ∀ (m : Memory) (a : Nat), m.wf → (m.writeBytes a bs).wf := by
  induction bs with
  | nil => exact fun m a h => h
  | cons b bs ih => exact fun m a h => ih _ _ (m.wf_write a b h)

theorem Memory.below_writeBytes (bs : List Byte) (n : Nat) :
    ∀ (m : Memory) (a : Nat), m.below n → (bs.length = 0 ∨ a + bs.length ≤ n) → (m.writeBytes a bs).below n := by
  induction bs with
  | nil => exact fun m a h _ => h
  | cons b bs ih =>
    intro m a h hn
    simp only [List.length_cons] at hn
    exact ih _ _ (m.below_write a n b h (by omega)) (by omega)

/-- A read after a write of several bytes. -/
theorem Memory.read_writeBytes (bs : List Byte) : ∀ (m : Memory) (a x : Nat),
    (m.writeBytes a bs).read x = if a ≤ x ∧ x < a + bs.length then bs[x - a]? else m.read x := by
  induction bs with
  | nil => intro m a x; simp only [Memory.writeBytes, List.length_nil]; rw [if_neg (by omega)]
  | cons b bs ih =>
    intro m a x
    rw [Memory.writeBytes, ih, Memory.read_write]
    by_cases h : a = x
    · subst h; simp
    · by_cases h1 : a + 1 ≤ x ∧ x < a + 1 + bs.length
      · rw [if_pos h1, if_pos (by simp; omega), show x - a = (x - (a + 1)) + 1 by omega]
        simp
      · rw [if_neg h1, if_neg h, if_neg (by simp only [List.length_cons]; omega)]

/-- Memory is in canonical form after power-on: it lists nothing. -/
theorem State.reset_txmem_wf : State.reset.txmem.wf := List.Pairwise.nil

/-! ## Runs of bytes and pixels -/

/-- A run of bytes is read iff every byte of it has a value, and then byte `j` of it is the one at `a + j`. -/
theorem bytesFrom_eq_some {get : Nat → Option Byte} : ∀ {n a : Nat} {bs : List Byte},
    bytesFrom get a n = some bs ↔ bs.length = n ∧ ∀ j < n, get (a + j) = bs[j]? := by
  intro n
  induction n with
  | zero =>
    intro a bs
    cases bs <;> simp [bytesFrom]
  | succ n ih =>
    intro a bs
    unfold bytesFrom
    constructor
    · intro h
      split at h
      · rename_i b bs' hb hbs
        cases h
        obtain ⟨hl, hg⟩ := ih.1 hbs
        refine ⟨by simp [hl], fun j hj => ?_⟩
        cases j with
        | zero => simpa using hb
        | succ j => simpa [Nat.add_assoc, Nat.add_comm 1] using hg j (by omega)
      · cases h
    · rintro ⟨hl, hg⟩
      cases bs with
      | nil => simp at hl
      | cons b bs =>
        have h0 : get a = some b := by simpa using hg 0 (by omega)
        have h1 : bytesFrom get (a + 1) n = some bs :=
          ih.2 ⟨by simpa using hl, fun j hj => by
            simpa [Nat.add_assoc, Nat.add_comm 1] using hg (j + 1) (by omega)⟩
        simp [h0, h1]

/-- No run is read iff some byte of it has no value. -/
theorem bytesFrom_eq_none {get : Nat → Option Byte} : ∀ {n a : Nat},
    bytesFrom get a n = none ↔ ∃ j < n, get (a + j) = none := by
  intro n
  induction n with
  | zero => simp [bytesFrom]
  | succ n ih =>
    intro a
    unfold bytesFrom
    constructor
    · intro h
      split at h
      · cases h
      · rename_i hx
        cases h0 : get a with
        | none => exact ⟨0, by omega, by simpa using h0⟩
        | some b =>
          cases h1 : bytesFrom get (a + 1) n with
          | some bs => exact (hx b bs h0 h1).elim
          | none =>
            obtain ⟨j, hj, hg⟩ := ih.1 h1
            exact ⟨j + 1, by omega, by rwa [show a + (j + 1) = a + 1 + j by omega]⟩
    · rintro ⟨j, hj, hg⟩
      cases j with
      | zero => rw [Nat.add_zero] at hg; simp [hg]
      | succ j =>
        have : bytesFrom get (a + 1) n = none :=
          ih.2 ⟨j, by omega, by rwa [show a + 1 + j = a + (j + 1) by omega]⟩
        cases h0 : get a <;> simp [this]

/-- Pixels are read from the same bytes as the run of their bytes. -/
theorem pixelsFrom_bytes {get : Nat → Option Byte} : ∀ {n a : Nat} {ps : List Pixel},
    pixelsFrom get a n = some ps ↔
      ps.length = n ∧ bytesFrom get a (3 * n) = some (ps.flatMap Pixel.bytes) := by
  intro n
  induction n with
  | zero =>
    intro a ps
    cases ps <;> simp [pixelsFrom, bytesFrom]
  | succ n ih =>
    intro a ps
    rw [show 3 * (n + 1) = 3 * n + 1 + 1 + 1 by omega]
    unfold pixelsFrom
    simp only [bytesFrom]
    constructor
    · intro h
      split at h
      · rename_i r g b qs hr hg hb hq
        cases h
        obtain ⟨hl, hbs⟩ := ih.1 hq
        simp [hr, hg, hb, hl, hbs, Pixel.bytes, show a + 1 + 1 = a + 2 from rfl, show a + 1 + 1 + 1 = a + 3 from rfl]
      · cases h
    · rintro ⟨hl, hbs⟩
      cases ps with
      | nil => simp at hl
      | cons p ps =>
        obtain ⟨r, g, b⟩ := p
        cases hr : get a <;> simp [hr] at hbs
        cases hg : get (a + 1) <;> simp [hg] at hbs
        cases hb : get (a + 1 + 1) <;> simp [hb] at hbs
        cases hq : bytesFrom get (a + 1 + 1 + 1) (3 * n) <;> simp [hq, Pixel.bytes] at hbs
        obtain ⟨rfl, rfl, rfl, rfl⟩ := hbs
        have hp : pixelsFrom get (a + 1 + 1 + 1) n = some ps := ih.2 ⟨by simpa using hl, hq⟩
        simp only [show a + 1 + 1 = a + 2 from rfl, show a + 2 + 1 = a + 3 from rfl] at hb hp
        simp [hp]

theorem length_flatMap_pixelBytes (ps : List Pixel) : (ps.flatMap Pixel.bytes).length = 3 * ps.length := by
  induction ps with
  | nil => rfl
  | cons p ps ih => simp [Pixel.bytes, ih]; omega

end Sys2Proof.Machine
end

