-- ==== Sys2Proof/Laws/State.lean ====
section
/-! SUPPORT. One lemma per field of State per named update: what the update leaves there. -/

namespace Sys2Proof.Machine

/-! ## Append(b) (R12) -/

@[simp] theorem State.append_cfg (s : State) (b : Byte) :
    (s.append b).cfg = s.cfg := rfl
@[simp] theorem State.append_code (s : State) (b : Byte) :
    (s.append b).code = s.code := rfl
@[simp] theorem State.append_dstate (s : State) (b : Byte) :
    (s.append b).dstate = s.dstate := rfl
@[simp] theorem State.append_inErr (s : State) (b : Byte) :
    (s.append b).inErr = s.inErr := rfl
@[simp] theorem State.append_result (s : State) (b : Byte) :
    (s.append b).result = s.result := rfl
@[simp] theorem State.append_rxHdr (s : State) (b : Byte) :
    (s.append b).rxHdr = s.rxHdr := rfl
@[simp] theorem State.append_rxPixcnt (s : State) (b : Byte) :
    (s.append b).rxPixcnt = s.rxPixcnt := rfl
@[simp] theorem State.append_rxSysid (s : State) (b : Byte) :
    (s.append b).rxSysid = s.rxSysid := rfl
@[simp] theorem State.append_rxDlen (s : State) (b : Byte) :
    (s.append b).rxDlen = s.rxDlen := rfl
@[simp] theorem State.append_txChan (s : State) (b : Byte) :
    (s.append b).txChan = s.txChan := rfl
@[simp] theorem State.append_txKind (s : State) (b : Byte) :
    (s.append b).txKind = s.txKind := rfl
@[simp] theorem State.append_txCount (s : State) (b : Byte) :
    (s.append b).txCount = s.txCount := rfl
@[simp] theorem State.append_txSysid (s : State) (b : Byte) :
    (s.append b).txSysid = s.txSysid := rfl
@[simp] theorem State.append_txBase (s : State) (b : Byte) :
    (s.append b).txBase = s.txBase := rfl
@[simp] theorem State.append_rxbuf (s : State) (b : Byte) :
    (s.append b).rxbuf = s.rxbuf ++ [b] := rfl
@[simp] theorem State.append_ephase (s : State) (b : Byte) :
    (s.append b).ephase = s.ephase := rfl
@[simp] theorem State.append_txmem (s : State) (b : Byte) :
    (s.append b).txmem = s.txmem := rfl
@[simp] theorem State.append_sinkLog (s : State) (b : Byte) :
    (s.append b).sinkLog = s.sinkLog := rfl
@[simp] theorem State.append_host (s : State) (b : Byte) :
    (s.append b).host = s.host := rfl
@[simp] theorem State.append_source (s : State) (b : Byte) :
    (s.append b).source = s.source := rfl
@[simp] theorem State.append_sink (s : State) (b : Byte) :
    (s.append b).sink = s.sink := rfl
@[simp] theorem State.append_turns (s : State) (b : Byte) :
    (s.append b).turns = s.turns := rfl
@[simp] theorem State.append_readData (s : State) (b : Byte) :
    (s.append b).readData = s.readData := rfl

/-! ## finish(CODE) (R12) -/

@[simp] theorem State.finish_cfg (s : State) (c : Code) :
    (s.finish c).cfg = s.cfg := rfl
@[simp] theorem State.finish_code (s : State) (c : Code) :
    (s.finish c).code = c := rfl
@[simp] theorem State.finish_dstate (s : State) (c : Code) :
    (s.finish c).dstate = s.dstate := rfl
@[simp] theorem State.finish_inErr (s : State) (c : Code) :
    (s.finish c).inErr = s.inErr := rfl
@[simp] theorem State.finish_result (s : State) (c : Code) :
    (s.finish c).result = s.result := rfl
@[simp] theorem State.finish_rxHdr (s : State) (c : Code) :
    (s.finish c).rxHdr = s.rxHdr := rfl
@[simp] theorem State.finish_rxPixcnt (s : State) (c : Code) :
    (s.finish c).rxPixcnt = s.rxPixcnt := rfl
@[simp] theorem State.finish_rxSysid (s : State) (c : Code) :
    (s.finish c).rxSysid = s.rxSysid := rfl
@[simp] theorem State.finish_rxDlen (s : State) (c : Code) :
    (s.finish c).rxDlen = s.rxDlen := rfl
@[simp] theorem State.finish_txChan (s : State) (c : Code) :
    (s.finish c).txChan = s.txChan := rfl
@[simp] theorem State.finish_txKind (s : State) (c : Code) :
    (s.finish c).txKind = s.txKind := rfl
@[simp] theorem State.finish_txCount (s : State) (c : Code) :
    (s.finish c).txCount = s.txCount := rfl
@[simp] theorem State.finish_txSysid (s : State) (c : Code) :
    (s.finish c).txSysid = s.txSysid := rfl
@[simp] theorem State.finish_txBase (s : State) (c : Code) :
    (s.finish c).txBase = s.txBase := rfl
@[simp] theorem State.finish_rxbuf (s : State) (c : Code) :
    (s.finish c).rxbuf = s.rxbuf := rfl
@[simp] theorem State.finish_ephase (s : State) (c : Code) :
    (s.finish c).ephase = s.ephase := rfl
@[simp] theorem State.finish_txmem (s : State) (c : Code) :
    (s.finish c).txmem = s.txmem := rfl
@[simp] theorem State.finish_sinkLog (s : State) (c : Code) :
    (s.finish c).sinkLog = s.sinkLog := rfl
@[simp] theorem State.finish_host (s : State) (c : Code) :
    (s.finish c).host = s.host := rfl
@[simp] theorem State.finish_source (s : State) (c : Code) :
    (s.finish c).source = s.source := rfl
@[simp] theorem State.finish_sink (s : State) (c : Code) :
    (s.finish c).sink = s.sink := rfl
@[simp] theorem State.finish_turns (s : State) (c : Code) :
    (s.finish c).turns = s.turns := rfl
@[simp] theorem State.finish_readData (s : State) (c : Code) :
    (s.finish c).readData = s.readData := rfl

/-! ## a command that returns a value (R36) -/

@[simp] theorem State.answer_cfg (s : State) (v : Word) :
    (s.answer v).cfg = s.cfg := rfl
@[simp] theorem State.answer_code (s : State) (v : Word) :
    (s.answer v).code = .ok := rfl
@[simp] theorem State.answer_dstate (s : State) (v : Word) :
    (s.answer v).dstate = s.dstate := rfl
@[simp] theorem State.answer_inErr (s : State) (v : Word) :
    (s.answer v).inErr = s.inErr := rfl
@[simp] theorem State.answer_result (s : State) (v : Word) :
    (s.answer v).result = v := rfl
@[simp] theorem State.answer_rxHdr (s : State) (v : Word) :
    (s.answer v).rxHdr = s.rxHdr := rfl
@[simp] theorem State.answer_rxPixcnt (s : State) (v : Word) :
    (s.answer v).rxPixcnt = s.rxPixcnt := rfl
@[simp] theorem State.answer_rxSysid (s : State) (v : Word) :
    (s.answer v).rxSysid = s.rxSysid := rfl
@[simp] theorem State.answer_rxDlen (s : State) (v : Word) :
    (s.answer v).rxDlen = s.rxDlen := rfl
@[simp] theorem State.answer_txChan (s : State) (v : Word) :
    (s.answer v).txChan = s.txChan := rfl
@[simp] theorem State.answer_txKind (s : State) (v : Word) :
    (s.answer v).txKind = s.txKind := rfl
@[simp] theorem State.answer_txCount (s : State) (v : Word) :
    (s.answer v).txCount = s.txCount := rfl
@[simp] theorem State.answer_txSysid (s : State) (v : Word) :
    (s.answer v).txSysid = s.txSysid := rfl
@[simp] theorem State.answer_txBase (s : State) (v : Word) :
    (s.answer v).txBase = s.txBase := rfl
@[simp] theorem State.answer_rxbuf (s : State) (v : Word) :
    (s.answer v).rxbuf = s.rxbuf := rfl
@[simp] theorem State.answer_ephase (s : State) (v : Word) :
    (s.answer v).ephase = s.ephase := rfl
@[simp] theorem State.answer_txmem (s : State) (v : Word) :
    (s.answer v).txmem = s.txmem := rfl
@[simp] theorem State.answer_sinkLog (s : State) (v : Word) :
    (s.answer v).sinkLog = s.sinkLog := rfl
@[simp] theorem State.answer_host (s : State) (v : Word) :
    (s.answer v).host = s.host := rfl
@[simp] theorem State.answer_source (s : State) (v : Word) :
    (s.answer v).source = s.source := rfl
@[simp] theorem State.answer_sink (s : State) (v : Word) :
    (s.answer v).sink = s.sink := rfl
@[simp] theorem State.answer_turns (s : State) (v : Word) :
    (s.answer v).turns = s.turns := rfl
@[simp] theorem State.answer_readData (s : State) (v : Word) :
    (s.answer v).readData = s.readData := rfl

/-! ## clearing the RX registers (R38 to R41) -/

@[simp] theorem State.clearRx_cfg (s : State) :
    (s.clearRx).cfg = s.cfg := rfl
@[simp] theorem State.clearRx_code (s : State) :
    (s.clearRx).code = s.code := rfl
@[simp] theorem State.clearRx_dstate (s : State) :
    (s.clearRx).dstate = .idle := rfl
@[simp] theorem State.clearRx_inErr (s : State) :
    (s.clearRx).inErr = s.inErr := rfl
@[simp] theorem State.clearRx_result (s : State) :
    (s.clearRx).result = s.result := rfl
@[simp] theorem State.clearRx_rxHdr (s : State) :
    (s.clearRx).rxHdr = 0#32 := rfl
@[simp] theorem State.clearRx_rxPixcnt (s : State) :
    (s.clearRx).rxPixcnt = 0#16 := rfl
@[simp] theorem State.clearRx_rxSysid (s : State) :
    (s.clearRx).rxSysid = 0#16 := rfl
@[simp] theorem State.clearRx_rxDlen (s : State) :
    (s.clearRx).rxDlen = 0#16 := rfl
@[simp] theorem State.clearRx_txChan (s : State) :
    (s.clearRx).txChan = s.txChan := rfl
@[simp] theorem State.clearRx_txKind (s : State) :
    (s.clearRx).txKind = s.txKind := rfl
@[simp] theorem State.clearRx_txCount (s : State) :
    (s.clearRx).txCount = s.txCount := rfl
@[simp] theorem State.clearRx_txSysid (s : State) :
    (s.clearRx).txSysid = s.txSysid := rfl
@[simp] theorem State.clearRx_txBase (s : State) :
    (s.clearRx).txBase = s.txBase := rfl
@[simp] theorem State.clearRx_rxbuf (s : State) :
    (s.clearRx).rxbuf = s.rxbuf := rfl
@[simp] theorem State.clearRx_ephase (s : State) :
    (s.clearRx).ephase = s.ephase := rfl
@[simp] theorem State.clearRx_txmem (s : State) :
    (s.clearRx).txmem = s.txmem := rfl
@[simp] theorem State.clearRx_sinkLog (s : State) :
    (s.clearRx).sinkLog = s.sinkLog := rfl
@[simp] theorem State.clearRx_host (s : State) :
    (s.clearRx).host = s.host := rfl
@[simp] theorem State.clearRx_source (s : State) :
    (s.clearRx).source = s.source := rfl
@[simp] theorem State.clearRx_sink (s : State) :
    (s.clearRx).sink = s.sink := rfl
@[simp] theorem State.clearRx_turns (s : State) :
    (s.clearRx).turns = s.turns := rfl
@[simp] theorem State.clearRx_readData (s : State) :
    (s.clearRx).readData = s.readData := rfl

/-! ## clearing the input-error latch (R35) -/

@[simp] theorem State.clearInErr_cfg (s : State) :
    (s.clearInErr).cfg = s.cfg := rfl
@[simp] theorem State.clearInErr_code (s : State) :
    (s.clearInErr).code = s.code := rfl
@[simp] theorem State.clearInErr_dstate (s : State) :
    (s.clearInErr).dstate = s.dstate := rfl
@[simp] theorem State.clearInErr_inErr (s : State) :
    (s.clearInErr).inErr = false := rfl
@[simp] theorem State.clearInErr_result (s : State) :
    (s.clearInErr).result = s.result := rfl
@[simp] theorem State.clearInErr_rxHdr (s : State) :
    (s.clearInErr).rxHdr = s.rxHdr := rfl
@[simp] theorem State.clearInErr_rxPixcnt (s : State) :
    (s.clearInErr).rxPixcnt = s.rxPixcnt := rfl
@[simp] theorem State.clearInErr_rxSysid (s : State) :
    (s.clearInErr).rxSysid = s.rxSysid := rfl
@[simp] theorem State.clearInErr_rxDlen (s : State) :
    (s.clearInErr).rxDlen = s.rxDlen := rfl
@[simp] theorem State.clearInErr_txChan (s : State) :
    (s.clearInErr).txChan = s.txChan := rfl
@[simp] theorem State.clearInErr_txKind (s : State) :
    (s.clearInErr).txKind = s.txKind := rfl
@[simp] theorem State.clearInErr_txCount (s : State) :
    (s.clearInErr).txCount = s.txCount := rfl
@[simp] theorem State.clearInErr_txSysid (s : State) :
    (s.clearInErr).txSysid = s.txSysid := rfl
@[simp] theorem State.clearInErr_txBase (s : State) :
    (s.clearInErr).txBase = s.txBase := rfl
@[simp] theorem State.clearInErr_rxbuf (s : State) :
    (s.clearInErr).rxbuf = s.rxbuf := rfl
@[simp] theorem State.clearInErr_ephase (s : State) :
    (s.clearInErr).ephase = s.ephase := rfl
@[simp] theorem State.clearInErr_txmem (s : State) :
    (s.clearInErr).txmem = s.txmem := rfl
@[simp] theorem State.clearInErr_sinkLog (s : State) :
    (s.clearInErr).sinkLog = s.sinkLog := rfl
@[simp] theorem State.clearInErr_host (s : State) :
    (s.clearInErr).host = s.host := rfl
@[simp] theorem State.clearInErr_source (s : State) :
    (s.clearInErr).source = s.source := rfl
@[simp] theorem State.clearInErr_sink (s : State) :
    (s.clearInErr).sink = s.sink := rfl
@[simp] theorem State.clearInErr_turns (s : State) :
    (s.clearInErr).turns = s.turns := rfl
@[simp] theorem State.clearInErr_readData (s : State) :
    (s.clearInErr).readData = s.readData := rfl

/-! ## showing a parsed header (R38) -/

@[simp] theorem State.setHdr_cfg (s : State) (h : Word) :
    (s.setHdr h).cfg = s.cfg := rfl
@[simp] theorem State.setHdr_code (s : State) (h : Word) :
    (s.setHdr h).code = s.code := rfl
@[simp] theorem State.setHdr_dstate (s : State) (h : Word) :
    (s.setHdr h).dstate = s.dstate := rfl
@[simp] theorem State.setHdr_inErr (s : State) (h : Word) :
    (s.setHdr h).inErr = s.inErr := rfl
@[simp] theorem State.setHdr_result (s : State) (h : Word) :
    (s.setHdr h).result = s.result := rfl
@[simp] theorem State.setHdr_rxHdr (s : State) (h : Word) :
    (s.setHdr h).rxHdr = h := rfl
@[simp] theorem State.setHdr_rxPixcnt (s : State) (h : Word) :
    (s.setHdr h).rxPixcnt = s.rxPixcnt := rfl
@[simp] theorem State.setHdr_rxSysid (s : State) (h : Word) :
    (s.setHdr h).rxSysid = s.rxSysid := rfl
@[simp] theorem State.setHdr_rxDlen (s : State) (h : Word) :
    (s.setHdr h).rxDlen = s.rxDlen := rfl
@[simp] theorem State.setHdr_txChan (s : State) (h : Word) :
    (s.setHdr h).txChan = s.txChan := rfl
@[simp] theorem State.setHdr_txKind (s : State) (h : Word) :
    (s.setHdr h).txKind = s.txKind := rfl
@[simp] theorem State.setHdr_txCount (s : State) (h : Word) :
    (s.setHdr h).txCount = s.txCount := rfl
@[simp] theorem State.setHdr_txSysid (s : State) (h : Word) :
    (s.setHdr h).txSysid = s.txSysid := rfl
@[simp] theorem State.setHdr_txBase (s : State) (h : Word) :
    (s.setHdr h).txBase = s.txBase := rfl
@[simp] theorem State.setHdr_rxbuf (s : State) (h : Word) :
    (s.setHdr h).rxbuf = s.rxbuf := rfl
@[simp] theorem State.setHdr_ephase (s : State) (h : Word) :
    (s.setHdr h).ephase = s.ephase := rfl
@[simp] theorem State.setHdr_txmem (s : State) (h : Word) :
    (s.setHdr h).txmem = s.txmem := rfl
@[simp] theorem State.setHdr_sinkLog (s : State) (h : Word) :
    (s.setHdr h).sinkLog = s.sinkLog := rfl
@[simp] theorem State.setHdr_host (s : State) (h : Word) :
    (s.setHdr h).host = s.host := rfl
@[simp] theorem State.setHdr_source (s : State) (h : Word) :
    (s.setHdr h).source = s.source := rfl
@[simp] theorem State.setHdr_sink (s : State) (h : Word) :
    (s.setHdr h).sink = s.sink := rfl
@[simp] theorem State.setHdr_turns (s : State) (h : Word) :
    (s.setHdr h).turns = s.turns := rfl
@[simp] theorem State.setHdr_readData (s : State) (h : Word) :
    (s.setHdr h).readData = s.readData := rfl

/-! ## presenting pixels (R182) -/

@[simp] theorem State.presentPixels_cfg (s : State) (n : Half) :
    (s.presentPixels n).cfg = s.cfg := rfl
@[simp] theorem State.presentPixels_code (s : State) (n : Half) :
    (s.presentPixels n).code = .delivered := rfl
@[simp] theorem State.presentPixels_dstate (s : State) (n : Half) :
    (s.presentPixels n).dstate = .delivering := rfl
@[simp] theorem State.presentPixels_inErr (s : State) (n : Half) :
    (s.presentPixels n).inErr = s.inErr := rfl
@[simp] theorem State.presentPixels_result (s : State) (n : Half) :
    (s.presentPixels n).result = s.result := rfl
@[simp] theorem State.presentPixels_rxHdr (s : State) (n : Half) :
    (s.presentPixels n).rxHdr = s.rxHdr := rfl
@[simp] theorem State.presentPixels_rxPixcnt (s : State) (n : Half) :
    (s.presentPixels n).rxPixcnt = n := rfl
@[simp] theorem State.presentPixels_rxSysid (s : State) (n : Half) :
    (s.presentPixels n).rxSysid = s.rxSysid := rfl
@[simp] theorem State.presentPixels_rxDlen (s : State) (n : Half) :
    (s.presentPixels n).rxDlen = s.rxDlen := rfl
@[simp] theorem State.presentPixels_txChan (s : State) (n : Half) :
    (s.presentPixels n).txChan = s.txChan := rfl
@[simp] theorem State.presentPixels_txKind (s : State) (n : Half) :
    (s.presentPixels n).txKind = s.txKind := rfl
@[simp] theorem State.presentPixels_txCount (s : State) (n : Half) :
    (s.presentPixels n).txCount = s.txCount := rfl
@[simp] theorem State.presentPixels_txSysid (s : State) (n : Half) :
    (s.presentPixels n).txSysid = s.txSysid := rfl
@[simp] theorem State.presentPixels_txBase (s : State) (n : Half) :
    (s.presentPixels n).txBase = s.txBase := rfl
@[simp] theorem State.presentPixels_rxbuf (s : State) (n : Half) :
    (s.presentPixels n).rxbuf = s.rxbuf := rfl
@[simp] theorem State.presentPixels_ephase (s : State) (n : Half) :
    (s.presentPixels n).ephase = s.ephase := rfl
@[simp] theorem State.presentPixels_txmem (s : State) (n : Half) :
    (s.presentPixels n).txmem = s.txmem := rfl
@[simp] theorem State.presentPixels_sinkLog (s : State) (n : Half) :
    (s.presentPixels n).sinkLog = s.sinkLog := rfl
@[simp] theorem State.presentPixels_host (s : State) (n : Half) :
    (s.presentPixels n).host = s.host := rfl
@[simp] theorem State.presentPixels_source (s : State) (n : Half) :
    (s.presentPixels n).source = s.source := rfl
@[simp] theorem State.presentPixels_sink (s : State) (n : Half) :
    (s.presentPixels n).sink = s.sink := rfl
@[simp] theorem State.presentPixels_turns (s : State) (n : Half) :
    (s.presentPixels n).turns = s.turns := rfl
@[simp] theorem State.presentPixels_readData (s : State) (n : Half) :
    (s.presentPixels n).readData = s.readData := rfl

/-! ## presenting a SysEx message (R183) -/

@[simp] theorem State.presentSysex_cfg (s : State) (id n : Half) :
    (s.presentSysex id n).cfg = s.cfg := rfl
@[simp] theorem State.presentSysex_code (s : State) (id n : Half) :
    (s.presentSysex id n).code = .delivered := rfl
@[simp] theorem State.presentSysex_dstate (s : State) (id n : Half) :
    (s.presentSysex id n).dstate = .delivering := rfl
@[simp] theorem State.presentSysex_inErr (s : State) (id n : Half) :
    (s.presentSysex id n).inErr = s.inErr := rfl
@[simp] theorem State.presentSysex_result (s : State) (id n : Half) :
    (s.presentSysex id n).result = s.result := rfl
@[simp] theorem State.presentSysex_rxHdr (s : State) (id n : Half) :
    (s.presentSysex id n).rxHdr = s.rxHdr := rfl
@[simp] theorem State.presentSysex_rxPixcnt (s : State) (id n : Half) :
    (s.presentSysex id n).rxPixcnt = s.rxPixcnt := rfl
@[simp] theorem State.presentSysex_rxSysid (s : State) (id n : Half) :
    (s.presentSysex id n).rxSysid = id := rfl
@[simp] theorem State.presentSysex_rxDlen (s : State) (id n : Half) :
    (s.presentSysex id n).rxDlen = n := rfl
@[simp] theorem State.presentSysex_txChan (s : State) (id n : Half) :
    (s.presentSysex id n).txChan = s.txChan := rfl
@[simp] theorem State.presentSysex_txKind (s : State) (id n : Half) :
    (s.presentSysex id n).txKind = s.txKind := rfl
@[simp] theorem State.presentSysex_txCount (s : State) (id n : Half) :
    (s.presentSysex id n).txCount = s.txCount := rfl
@[simp] theorem State.presentSysex_txSysid (s : State) (id n : Half) :
    (s.presentSysex id n).txSysid = s.txSysid := rfl
@[simp] theorem State.presentSysex_txBase (s : State) (id n : Half) :
    (s.presentSysex id n).txBase = s.txBase := rfl
@[simp] theorem State.presentSysex_rxbuf (s : State) (id n : Half) :
    (s.presentSysex id n).rxbuf = s.rxbuf := rfl
@[simp] theorem State.presentSysex_ephase (s : State) (id n : Half) :
    (s.presentSysex id n).ephase = s.ephase := rfl
@[simp] theorem State.presentSysex_txmem (s : State) (id n : Half) :
    (s.presentSysex id n).txmem = s.txmem := rfl
@[simp] theorem State.presentSysex_sinkLog (s : State) (id n : Half) :
    (s.presentSysex id n).sinkLog = s.sinkLog := rfl
@[simp] theorem State.presentSysex_host (s : State) (id n : Half) :
    (s.presentSysex id n).host = s.host := rfl
@[simp] theorem State.presentSysex_source (s : State) (id n : Half) :
    (s.presentSysex id n).source = s.source := rfl
@[simp] theorem State.presentSysex_sink (s : State) (id n : Half) :
    (s.presentSysex id n).sink = s.sink := rfl
@[simp] theorem State.presentSysex_turns (s : State) (id n : Half) :
    (s.presentSysex id n).turns = s.turns := rfl
@[simp] theorem State.presentSysex_readData (s : State) (id n : Half) :
    (s.presentSysex id n).readData = s.readData := rfl

/-! ## holding a failed frame (R183, R184) -/

@[simp] theorem State.holdError_cfg (s : State) (c : Code) :
    (s.holdError c).cfg = s.cfg := rfl
@[simp] theorem State.holdError_code (s : State) (c : Code) :
    (s.holdError c).code = c := rfl
@[simp] theorem State.holdError_dstate (s : State) (c : Code) :
    (s.holdError c).dstate = .errHeld := rfl
@[simp] theorem State.holdError_inErr (s : State) (c : Code) :
    (s.holdError c).inErr = s.inErr := rfl
@[simp] theorem State.holdError_result (s : State) (c : Code) :
    (s.holdError c).result = s.result := rfl
@[simp] theorem State.holdError_rxHdr (s : State) (c : Code) :
    (s.holdError c).rxHdr = s.rxHdr := rfl
@[simp] theorem State.holdError_rxPixcnt (s : State) (c : Code) :
    (s.holdError c).rxPixcnt = s.rxPixcnt := rfl
@[simp] theorem State.holdError_rxSysid (s : State) (c : Code) :
    (s.holdError c).rxSysid = s.rxSysid := rfl
@[simp] theorem State.holdError_rxDlen (s : State) (c : Code) :
    (s.holdError c).rxDlen = s.rxDlen := rfl
@[simp] theorem State.holdError_txChan (s : State) (c : Code) :
    (s.holdError c).txChan = s.txChan := rfl
@[simp] theorem State.holdError_txKind (s : State) (c : Code) :
    (s.holdError c).txKind = s.txKind := rfl
@[simp] theorem State.holdError_txCount (s : State) (c : Code) :
    (s.holdError c).txCount = s.txCount := rfl
@[simp] theorem State.holdError_txSysid (s : State) (c : Code) :
    (s.holdError c).txSysid = s.txSysid := rfl
@[simp] theorem State.holdError_txBase (s : State) (c : Code) :
    (s.holdError c).txBase = s.txBase := rfl
@[simp] theorem State.holdError_rxbuf (s : State) (c : Code) :
    (s.holdError c).rxbuf = s.rxbuf := rfl
@[simp] theorem State.holdError_ephase (s : State) (c : Code) :
    (s.holdError c).ephase = s.ephase := rfl
@[simp] theorem State.holdError_txmem (s : State) (c : Code) :
    (s.holdError c).txmem = s.txmem := rfl
@[simp] theorem State.holdError_sinkLog (s : State) (c : Code) :
    (s.holdError c).sinkLog = s.sinkLog := rfl
@[simp] theorem State.holdError_host (s : State) (c : Code) :
    (s.holdError c).host = s.host := rfl
@[simp] theorem State.holdError_source (s : State) (c : Code) :
    (s.holdError c).source = s.source := rfl
@[simp] theorem State.holdError_sink (s : State) (c : Code) :
    (s.holdError c).sink = s.sink := rfl
@[simp] theorem State.holdError_turns (s : State) (c : Code) :
    (s.holdError c).turns = s.turns := rfl
@[simp] theorem State.holdError_readData (s : State) (c : Code) :
    (s.holdError c).readData = s.readData := rfl

/-! ## EPHASE <- p (R49) -/

@[simp] theorem State.setPhase_cfg (s : State) (p : EPhase) :
    (s.setPhase p).cfg = s.cfg := rfl
@[simp] theorem State.setPhase_code (s : State) (p : EPhase) :
    (s.setPhase p).code = s.code := rfl
@[simp] theorem State.setPhase_dstate (s : State) (p : EPhase) :
    (s.setPhase p).dstate = s.dstate := rfl
@[simp] theorem State.setPhase_inErr (s : State) (p : EPhase) :
    (s.setPhase p).inErr = s.inErr := rfl
@[simp] theorem State.setPhase_result (s : State) (p : EPhase) :
    (s.setPhase p).result = s.result := rfl
@[simp] theorem State.setPhase_rxHdr (s : State) (p : EPhase) :
    (s.setPhase p).rxHdr = s.rxHdr := rfl
@[simp] theorem State.setPhase_rxPixcnt (s : State) (p : EPhase) :
    (s.setPhase p).rxPixcnt = s.rxPixcnt := rfl
@[simp] theorem State.setPhase_rxSysid (s : State) (p : EPhase) :
    (s.setPhase p).rxSysid = s.rxSysid := rfl
@[simp] theorem State.setPhase_rxDlen (s : State) (p : EPhase) :
    (s.setPhase p).rxDlen = s.rxDlen := rfl
@[simp] theorem State.setPhase_txChan (s : State) (p : EPhase) :
    (s.setPhase p).txChan = s.txChan := rfl
@[simp] theorem State.setPhase_txKind (s : State) (p : EPhase) :
    (s.setPhase p).txKind = s.txKind := rfl
@[simp] theorem State.setPhase_txCount (s : State) (p : EPhase) :
    (s.setPhase p).txCount = s.txCount := rfl
@[simp] theorem State.setPhase_txSysid (s : State) (p : EPhase) :
    (s.setPhase p).txSysid = s.txSysid := rfl
@[simp] theorem State.setPhase_txBase (s : State) (p : EPhase) :
    (s.setPhase p).txBase = s.txBase := rfl
@[simp] theorem State.setPhase_rxbuf (s : State) (p : EPhase) :
    (s.setPhase p).rxbuf = s.rxbuf := rfl
@[simp] theorem State.setPhase_ephase (s : State) (p : EPhase) :
    (s.setPhase p).ephase = p := rfl
@[simp] theorem State.setPhase_txmem (s : State) (p : EPhase) :
    (s.setPhase p).txmem = s.txmem := rfl
@[simp] theorem State.setPhase_sinkLog (s : State) (p : EPhase) :
    (s.setPhase p).sinkLog = s.sinkLog := rfl
@[simp] theorem State.setPhase_host (s : State) (p : EPhase) :
    (s.setPhase p).host = s.host := rfl
@[simp] theorem State.setPhase_source (s : State) (p : EPhase) :
    (s.setPhase p).source = s.source := rfl
@[simp] theorem State.setPhase_sink (s : State) (p : EPhase) :
    (s.setPhase p).sink = s.sink := rfl
@[simp] theorem State.setPhase_turns (s : State) (p : EPhase) :
    (s.setPhase p).turns = s.turns := rfl
@[simp] theorem State.setPhase_readData (s : State) (p : EPhase) :
    (s.setPhase p).readData = s.readData := rfl

/-! ## an ended sink transaction (R142) -/

@[simp] theorem State.logTxn_cfg (s : State) (t : SinkTxn) (r : SinkReply) :
    (s.logTxn t r).cfg = s.cfg := rfl
@[simp] theorem State.logTxn_code (s : State) (t : SinkTxn) (r : SinkReply) :
    (s.logTxn t r).code = s.code := rfl
@[simp] theorem State.logTxn_dstate (s : State) (t : SinkTxn) (r : SinkReply) :
    (s.logTxn t r).dstate = s.dstate := rfl
@[simp] theorem State.logTxn_inErr (s : State) (t : SinkTxn) (r : SinkReply) :
    (s.logTxn t r).inErr = s.inErr := rfl
@[simp] theorem State.logTxn_result (s : State) (t : SinkTxn) (r : SinkReply) :
    (s.logTxn t r).result = s.result := rfl
@[simp] theorem State.logTxn_rxHdr (s : State) (t : SinkTxn) (r : SinkReply) :
    (s.logTxn t r).rxHdr = s.rxHdr := rfl
@[simp] theorem State.logTxn_rxPixcnt (s : State) (t : SinkTxn) (r : SinkReply) :
    (s.logTxn t r).rxPixcnt = s.rxPixcnt := rfl
@[simp] theorem State.logTxn_rxSysid (s : State) (t : SinkTxn) (r : SinkReply) :
    (s.logTxn t r).rxSysid = s.rxSysid := rfl
@[simp] theorem State.logTxn_rxDlen (s : State) (t : SinkTxn) (r : SinkReply) :
    (s.logTxn t r).rxDlen = s.rxDlen := rfl
@[simp] theorem State.logTxn_txChan (s : State) (t : SinkTxn) (r : SinkReply) :
    (s.logTxn t r).txChan = s.txChan := rfl
@[simp] theorem State.logTxn_txKind (s : State) (t : SinkTxn) (r : SinkReply) :
    (s.logTxn t r).txKind = s.txKind := rfl
@[simp] theorem State.logTxn_txCount (s : State) (t : SinkTxn) (r : SinkReply) :
    (s.logTxn t r).txCount = s.txCount := rfl
@[simp] theorem State.logTxn_txSysid (s : State) (t : SinkTxn) (r : SinkReply) :
    (s.logTxn t r).txSysid = s.txSysid := rfl
@[simp] theorem State.logTxn_txBase (s : State) (t : SinkTxn) (r : SinkReply) :
    (s.logTxn t r).txBase = s.txBase := rfl
@[simp] theorem State.logTxn_rxbuf (s : State) (t : SinkTxn) (r : SinkReply) :
    (s.logTxn t r).rxbuf = s.rxbuf := rfl
@[simp] theorem State.logTxn_ephase (s : State) (t : SinkTxn) (r : SinkReply) :
    (s.logTxn t r).ephase = s.ephase := rfl
@[simp] theorem State.logTxn_txmem (s : State) (t : SinkTxn) (r : SinkReply) :
    (s.logTxn t r).txmem = s.txmem := rfl
@[simp] theorem State.logTxn_sinkLog (s : State) (t : SinkTxn) (r : SinkReply) :
    (s.logTxn t r).sinkLog = s.sinkLog ++ [⟨t, r⟩] := rfl
@[simp] theorem State.logTxn_host (s : State) (t : SinkTxn) (r : SinkReply) :
    (s.logTxn t r).host = s.host := rfl
@[simp] theorem State.logTxn_source (s : State) (t : SinkTxn) (r : SinkReply) :
    (s.logTxn t r).source = s.source := rfl
@[simp] theorem State.logTxn_sink (s : State) (t : SinkTxn) (r : SinkReply) :
    (s.logTxn t r).sink = s.sink := rfl
@[simp] theorem State.logTxn_turns (s : State) (t : SinkTxn) (r : SinkReply) :
    (s.logTxn t r).turns = s.turns := rfl
@[simp] theorem State.logTxn_readData (s : State) (t : SinkTxn) (r : SinkReply) :
    (s.logTxn t r).readData = s.readData := rfl

/-! ## the reset of the block (R250) -/

@[simp] theorem State.resetBlock_cfg (s : State) :
    (s.resetBlock).cfg = s.cfg := rfl
@[simp] theorem State.resetBlock_code (s : State) :
    (s.resetBlock).code = .ok := rfl
@[simp] theorem State.resetBlock_dstate (s : State) :
    (s.resetBlock).dstate = .idle := rfl
@[simp] theorem State.resetBlock_inErr (s : State) :
    (s.resetBlock).inErr = false := rfl
@[simp] theorem State.resetBlock_result (s : State) :
    (s.resetBlock).result = 0#32 := rfl
@[simp] theorem State.resetBlock_rxHdr (s : State) :
    (s.resetBlock).rxHdr = 0#32 := rfl
@[simp] theorem State.resetBlock_rxPixcnt (s : State) :
    (s.resetBlock).rxPixcnt = 0#16 := rfl
@[simp] theorem State.resetBlock_rxSysid (s : State) :
    (s.resetBlock).rxSysid = 0#16 := rfl
@[simp] theorem State.resetBlock_rxDlen (s : State) :
    (s.resetBlock).rxDlen = 0#16 := rfl
@[simp] theorem State.resetBlock_txChan (s : State) :
    (s.resetBlock).txChan = 0#8 := rfl
@[simp] theorem State.resetBlock_txKind (s : State) :
    (s.resetBlock).txKind = 0#1 := rfl
@[simp] theorem State.resetBlock_txCount (s : State) :
    (s.resetBlock).txCount = 0#24 := rfl
@[simp] theorem State.resetBlock_txSysid (s : State) :
    (s.resetBlock).txSysid = 0#16 := rfl
@[simp] theorem State.resetBlock_txBase (s : State) :
    (s.resetBlock).txBase = 0#32 := rfl
@[simp] theorem State.resetBlock_rxbuf (s : State) :
    (s.resetBlock).rxbuf = [] := rfl
@[simp] theorem State.resetBlock_ephase (s : State) :
    (s.resetBlock).ephase = .idle := rfl
@[simp] theorem State.resetBlock_txmem (s : State) :
    (s.resetBlock).txmem = s.txmem := rfl
@[simp] theorem State.resetBlock_sinkLog (s : State) :
    (s.resetBlock).sinkLog = s.sinkLog := rfl
@[simp] theorem State.resetBlock_host (s : State) :
    (s.resetBlock).host = s.host := rfl
@[simp] theorem State.resetBlock_source (s : State) :
    (s.resetBlock).source = s.source := rfl
@[simp] theorem State.resetBlock_sink (s : State) :
    (s.resetBlock).sink = s.sink := rfl
@[simp] theorem State.resetBlock_turns (s : State) :
    (s.resetBlock).turns = s.turns := rfl
@[simp] theorem State.resetBlock_readData (s : State) :
    (s.resetBlock).readData = s.readData := rfl

end Sys2Proof.Machine
end

