-- ==== Sys2Proof/Laws/Ops.lean ====
section
/-! SUPPORT. One lemma per shared operation of the commands: everything it can do. -/

namespace Sys2Proof.Machine

/-! ## The decoder's shared operations -/

/-- A receive attempt: BAD_STATE, the latched input error, or the parse. -/
theorem receive_cases (parse : State → Result) (s : State) :
    (s.dstate = .delivering ∧ receive parse s = .next (s.finish .badState)) ∨
    (s.dstate ≠ .delivering ∧ s.inErr = true ∧
      receive parse s = .next (s.clearRx.clearInErr.finish .ioFailure)) ∨
    (s.dstate ≠ .delivering ∧ s.inErr = false ∧ receive parse s = parse s.clearRx) := by
  unfold receive
  by_cases h : s.dstate = .delivering
  · simp [h]
  · cases hi : s.inErr <;> simp [h]

/-- A receive attempt with no message delivered and no input error latched is the parse. -/
theorem receive_of_ready (parse : State → Result) {s : State} (h : s.dstate ≠ .delivering) (hi : s.inErr = false) :
    receive parse s = parse s.clearRx := by
  rcases receive_cases parse s with ⟨a, _⟩ | ⟨_, a, _⟩ | ⟨_, _, e⟩
  · exact (h a).elim
  · rw [hi] at a; cases a
  · exact e

/-- The header is shown; the frame runs iff all of it is buffered. -/
theorem withHeader_cases (h : Word) (frame : State → Result) (s : State) :
    (s.rxCount < frameLen h ∧ withHeader h frame s = .next ((s.setHdr h).finish .incompletePayload)) ∨
    (frameLen h ≤ s.rxCount ∧ withHeader h frame s = frame (s.setHdr h)) := by
  unfold withHeader
  by_cases hl : s.rxCount < frameLen h
  · simp [hl]
  · right; simp [hl]; omega

/-- A SystemExclusive frame is MALFORMED, or presented with its id, or its id is not buffered. -/
theorem parseSysex_cases (len : Nat) (s : State) :
    (len < 2 ∧ parseSysex len s = .next (s.holdError .malformed)) ∨
    (2 ≤ len ∧ ∃ a b, s.rxByte 4 = some a ∧ s.rxByte 5 = some b ∧
      parseSysex len s = .next (s.presentSysex (a ++ b) (BitVec.ofNat 16 (len - 2)))) ∨
    (2 ≤ len ∧ s.rxCount < 6 ∧ parseSysex len s = .fault .invariant) := by
  unfold parseSysex
  by_cases hl : len < 2
  · simp [hl]
  · have hl' : 2 ≤ len := by omega
    simp only [sysidBytes, hl, if_false, hl', true_and, false_and, false_or]
    cases h4 : s.rxByte 4 with
    | none => right; simp [State.rxByte] at h4; simp [State.rxCount]; omega
    | some a =>
      cases h5 : s.rxByte 5 with
      | none => right; simp [State.rxByte] at h5; simp [State.rxCount]; omega
      | some b => left; exact ⟨a, b, rfl, rfl, rfl⟩

/-- RECV from "Awaiting header" on, by the header at the front and its tag. -/
theorem parseFront_cases (s : State) :
    (s.rxFront = none ∧ parseFront s = .next (s.finish .incompleteHeader)) ∨
    ∃ h, s.rxFront = some h ∧
      ((hdrTag h = tagSpc ∧ parseFront s = withHeader h (parsePixels (hdrPayload h)) s) ∨
       (hdrTag h = tagSysex ∧ parseFront s = withHeader h (parseSysex (hdrPayload h)) s) ∨
       (hdrTag h ≠ tagSpc ∧ hdrTag h ≠ tagSysex ∧ parseFront s = withHeader h parseUnknown s)) := by
  unfold parseFront
  cases hf : s.rxFront with
  | none => simp
  | some h =>
    refine .inr ⟨h, rfl, ?_⟩
    by_cases h0 : hdrTag h = tagSpc
    · exact .inl ⟨h0, by simp only [decodeFrame, if_pos h0]⟩
    · by_cases h1 : hdrTag h = tagSysex
      · exact .inr (.inl ⟨h1, by simp only [decodeFrame, if_neg h0, if_pos h1]⟩)
      · exact .inr (.inr ⟨h0, h1, by simp only [decodeFrame, if_neg h0, if_neg h1]⟩)

/-- Consume, and its precondition. -/
theorem State.consume_cases (s : State) (k : Nat) :
    (k ≤ s.rxCount ∧ s.consume k = some { s with rxbuf := s.rxbuf.drop k }) ∨
    (s.rxCount < k ∧ s.consume k = none) := by
  unfold State.consume
  by_cases h : k ≤ s.rxCount
  · simp [h]
  · right; simp [h]; omega

/-- DONE and SKIP: consume the announced frame, BAD_STATE, or the frame is not buffered. -/
theorem release_cases (held : DState) (s : State) :
    (s.dstate = held ∧ frameLen s.rxHdr ≤ s.rxCount ∧
      release held s =
        .next (({ s with rxbuf := s.rxbuf.drop (frameLen s.rxHdr) } : State).clearRx.finish .ok)) ∨
    (s.dstate ≠ held ∧ release held s = .next (s.finish .badState)) ∨
    (s.dstate = held ∧ s.rxCount < frameLen s.rxHdr ∧ release held s = .fault .invariant) := by
  unfold release
  by_cases h : s.dstate = held
  · rcases s.consume_cases (frameLen s.rxHdr) with ⟨hk, e⟩ | ⟨hk, e⟩
    · left; simp [h, hk, e]
    · right; right; simp [h, hk, e]
  · simp [h]

/-- RDPIX and RDDATA: BAD_STATE, BAD_INDEX, the item, or the item is not buffered. -/
theorem readItem_cases (i count : Nat) (item : Option Word) (s : State) :
    (s.dstate ≠ .delivering ∧ readItem i count item s = .next (s.finish .badState)) ∨
    (s.dstate = .delivering ∧ count ≤ i ∧ readItem i count item s = .next (s.finish .badIndex)) ∨
    (s.dstate = .delivering ∧ i < count ∧ ∃ v, item = some v ∧ readItem i count item s = .next (s.answer v)) ∨
    (s.dstate = .delivering ∧ i < count ∧ item = none ∧ readItem i count item s = .fault .invariant) := by
  unfold readItem
  by_cases h : s.dstate = .delivering
  · by_cases hi : count ≤ i
    · simp [h, hi]
    · have hi' : i < count := by omega
      cases item <;> simp [h, hi, hi']
  · simp [h]

/-- A pixel has a value iff its three bytes are buffered. -/
theorem State.pixelWord_eq_none {s : State} {i : Nat} : s.pixelWord i = none ↔ s.rxCount ≤ 6 + 3 * i := by
  unfold State.pixelWord State.rxByte State.rxCount
  cases h4 : s.rxbuf[4 + 3 * i]? with
  | none => simp at h4 ⊢; omega
  | some r =>
    cases h5 : s.rxbuf[5 + 3 * i]? with
    | none => simp at h5 ⊢; omega
    | some g =>
      cases h6 : s.rxbuf[6 + 3 * i]? with
      | none => simpa using h6
      | some b => simpa using (List.getElem?_eq_some_iff.1 h6).1

/-- A data byte has a value iff it is buffered. -/
theorem State.dataWord_eq_none {s : State} {i : Nat} : s.dataWord i = none ↔ s.rxCount ≤ 6 + i := by
  unfold State.dataWord State.rxByte State.rxCount
  cases h : s.rxbuf[6 + i]? with
  | none => simpa using h
  | some b => simpa using (List.getElem?_eq_some_iff.1 h).1

/-! ## The queries -/

/-- A query answers, or gives BAD_STATE where nothing is selected. -/
theorem query_cases {α : Type} (selected : Option α) (f : α → Word) (s : State) :
    (∃ v, selected = some v ∧ query selected f s = .next (s.answer (f v))) ∨
    (selected = none ∧ query selected f s = .next (s.finish .badState)) := by
  cases selected with
  | none => exact .inr ⟨rfl, rfl⟩
  | some v => exact .inl ⟨v, rfl, rfl⟩

/-! ## The encoder -/

/-- The payload is formed iff every TXMEM byte of it is written. -/
theorem State.txPayload_eq_none {s : State} :
    s.txPayload = none ↔ ∃ j < s.txMemBytes, s.txmem.read (s.txBase.toNat + j) = none := by
  rw [← bytesFrom_eq_none]
  unfold State.txPayload
  cases bytesFrom s.txmem.read s.txBase.toNat s.txMemBytes <;> simp

/-- The payload has as many bytes as the message is long. -/
theorem State.length_txPayload {s : State} {p : List Byte} (h : s.txPayload = some p) : p.length = s.txLength := by
  unfold State.txPayload at h
  cases hb : bytesFrom s.txmem.read s.txBase.toNat s.txMemBytes with
  | none => simp [hb] at h
  | some data =>
    have hl := (bytesFrom_eq_some.1 hb).1
    simp only [hb, Option.some.injEq] at h
    subst h
    unfold State.txMemBytes at hl
    unfold State.txLength
    split <;> simp_all
    omega

/-- SEND's first step, in the order of its checks. -/
theorem execSend_cases (s : State) :
    (65535 < s.txLength ∧ execSend s = .next (s.finish .oversized)) ∨
    (s.txLength ≤ 65535 ∧ s.cfg.txmemSize < s.txBase.toNat + s.txMemBytes ∧
      execSend s = .next (s.finish .badAddr)) ∨
    (s.txLength ≤ 65535 ∧ s.txBase.toNat + s.txMemBytes ≤ s.cfg.txmemSize ∧
      ∃ p, s.txPayload = some p ∧ execSend s = .next (s.setPhase .w1)) ∨
    (s.txLength ≤ 65535 ∧ s.txBase.toNat + s.txMemBytes ≤ s.cfg.txmemSize ∧
      s.txPayload = none ∧ execSend s = .fault .uninitTxmem) := by
  unfold execSend
  by_cases h1 : maxLen < s.txLength
  · left; simp_all
  · have h1' : s.txLength ≤ 65535 := by simpa using h1
    by_cases h2 : s.cfg.txmemSize < s.txBase.toNat + s.txMemBytes
    · right; left; simp [h1', h2]
    · have h2' := Nat.le_of_not_lt h2
      right; right
      cases hp : s.txPayload with
      | none => right; simp only [if_neg h1, if_neg h2]; simp [h1', h2']
      | some p => left; simp only [if_neg h1, if_neg h2]; simp [h1', h2']

/-- The transaction that is outstanding, by phase. -/
theorem State.outstanding_eq_none {s : State} (hs : s.outstanding = none) :
    s.ephase = .idle ∨ (s.ephase = .w4 ∧ s.txPayload = none) := by
  unfold State.outstanding at hs
  cases h : s.ephase <;> simp_all

/-- A sink answer: `ok` goes to the next phase, `ok` to the flush ends the SEND, `fail` ends it. -/
theorem sinkAnswers_cases (x : SinkTxn) (a : SinkAnswer) (s : State) :
    (a = .ok ∧ s.ephase ≠ .flush ∧ sinkAnswers x a s = (s.logTxn x .ok).setPhase s.phaseAfter) ∨
    (a = .ok ∧ s.ephase = .flush ∧ sinkAnswers x a s = ((s.logTxn x .ok).setPhase .idle).finish .ok) ∨
    ∃ k, a = .fail k ∧ sinkAnswers x a s = ((s.logTxn x (.fail k)).setPhase .idle).finish .ioFailure := by
  cases a with
  | fail k => exact .inr (.inr ⟨k, rfl, rfl⟩)
  | ok =>
    by_cases h : s.ephase = .flush
    · exact .inr (.inl ⟨rfl, h, by simp [sinkAnswers, h, State.phaseAfter]⟩)
    · exact .inl ⟨rfl, h, by simp [sinkAnswers, h]⟩

end Sys2Proof.Machine
end

