-- ==== Sys2Proof/Laws/PerInstr.lean ====
section
/-! SUPPORT. Statements about every instruction as syntax, one lemma per constructor. -/

namespace Sys2Proof.Laws.Row

/-- The instruction's word is a word of its row of spec/opcode_table.json (30_encoding.md R92, R98). -/
def Statement (i : Instr) : Prop := encode i &&& i.row.mask = i.row.pattern

/-- A word whose low half is `c` matches a row that fixes the low half to `c`. -/
theorem index_word (k : Nat) (c : Half) :
    (BitVec.ofNat 16 k ++ c : Word) &&& 0x0000FFFF#32 = c.setWidth 32 := by
  have h : (0x0000FFFF#32 : Word) = (0#16 ++ 0xFFFF#16 : Word) := rfl
  rw [h, BitVec.and_append]
  apply BitVec.eq_of_toNat_eq
  simp only [toNat_append_eq]
  have := c.isLt
  simp only [BitVec.toNat_and, BitVec.toNat_setWidth, BitVec.toNat_ofNat]
  rw [show (65535 % 2 ^ 16) = 2 ^ 16 - 1 by decide, Nat.and_two_pow_sub_one_eq_mod]
  simp
  omega

/-- A header word has its tag under the mask of the frame rows. -/
theorem header_word (ch tag : Byte) (len : Nat) :
    mkHeader ch tag len &&& 0x00FF0000#32 = mkHeader 0#8 tag 0 := by
  have h : (0x00FF0000#32 : Word) = (0#8 ++ 0xFF#8 ++ 0#16 : Word) := rfl
  rw [h, mkHeader, BitVec.and_append, BitVec.and_append, mkHeader]
  congr 1
  · congr 1
    · simp
    · exact BitVec.and_allOnes
  · simp

theorem recv : Statement .recv := rfl
theorem done : Statement .done := rfl
theorem skip : Statement .skip := rfl
theorem rdpix (k : Nat) : Statement (.rdpix k) := index_word k _
theorem rddata (k : Nat) : Statement (.rddata k) := index_word k _
theorem send : Statement .send := rfl
theorem length (sel : Sel) : Statement (.length sel) := by cases sel <;> rfl
theorem isvalid (sel : Sel) : Statement (.isvalid sel) := by cases sel <;> rfl
theorem isbcast (sel : Sel) : Statement (.isbcast sel) := by cases sel <;> rfl
theorem frameSetPixelColors (ch : Byte) (len : Nat) : Statement (.frameSetPixelColors ch len) :=
  header_word ch _ len
theorem frameSystemExclusive (ch : Byte) (len : Nat) : Statement (.frameSystemExclusive ch len) :=
  header_word ch _ len

end Sys2Proof.Laws.Row
end

