-- ==== Sys2Proof/Laws/Run.lean ====
section
/-! SUPPORT. Runs of several steps: one step at a time, and one run after another. -/

namespace Sys2Proof.Machine

/-- A run that begins with a step to `t` goes on from `t`. -/
theorem runFor_succ (k : Nat) {s t : State} (h : step s = .next t) : runFor (k + 1) s = runFor k t := by
  simp only [runFor, h]

/-- A run of `j + k` steps is a run of `k` steps from where the first `j` lead. -/
theorem runFor_add (j : Nat) : ∀ (k : Nat) {s t : State}, runFor j s = .next t → runFor (j + k) s = runFor k t := by
  induction j with
  | zero =>
    intro k s t h
    simp only [runFor, Host.Outcome.next.injEq] at h
    rw [h, Nat.zero_add]
  | succ j ih =>
    intro k s t h
    rw [show j + 1 + k = (j + k) + 1 by omega]
    cases hs : step s with
    | next u =>
      rw [runFor_succ _ hs] at h ⊢
      exact ih k h
    | fault f => simp only [runFor, hs] at h; cases h
    | refused r => simp only [runFor, hs] at h; cases h

end Sys2Proof.Machine
end

