-- ==== Sys2Proof/Laws/Step.lean ====
section
/-! SUPPORT. Everything one step can do, said once: the ways it ends in a next state and the ways it faults. -/

namespace Sys2Proof.Machine

/-- No register lies above offset 0x40 (R25). -/
theorem csrAt_above {o : Nat} (h : 0x40 < o) : csrAt o = none := by
  unfold csrAt
  repeat rw [if_neg (by omega)]

/-- Only offset 0x0C is CMD. -/
theorem csrAt_eq_cmd {o : Nat} : csrAt o = some .cmd ↔ o = 0x0C := by
  by_cases h : 0x40 < o
  · rw [csrAt_above h]
    constructor
    · intro h'; cases h'
    · intro h'; omega
  · have h' : o < 0x41 := by omega
    clear h
    revert o
    decide

/-- A 32-bit access at an offset from CSR_BASE reaches the register at that offset. -/
theorem csrAccess_offset (cfg : Config) (o : Nat) : csrAccess cfg 32 (cfg.csrBase + o) = csrAt o := by
  rw [csrAccess, if_pos ⟨rfl, Nat.le_add_right _ _⟩, Nat.add_sub_cancel_left]

/-- The register at offset 0x0C from CSR_BASE is CMD, and no other access reaches CMD. -/
theorem csrAccess_eq_cmd {cfg : Config} {bits addr : Nat} :
    csrAccess cfg bits addr = some .cmd ↔ bits = 32 ∧ addr = cfg.csrBase + 0x0C := by
  unfold csrAccess
  by_cases h : bits = 32 ∧ cfg.csrBase ≤ addr
  · rw [if_pos h, csrAt_eq_cmd]
    omega
  · rw [if_neg h]
    constructor
    · intro h'; cases h'
    · rintro ⟨rfl, rfl⟩
      exact (h ⟨rfl, by omega⟩).elim

/-- An offset has no register iff it is not a multiple of 4, beyond the map, or 0x2C (R25, R62). -/
theorem csrAt_eq_none {o : Nat} : csrAt o = none ↔ ¬ (o % 4 = 0 ∧ o ≤ 0x40 ∧ o ≠ 0x2C) := by
  by_cases h : 0x40 < o
  · rw [csrAt_above h]
    simp only [true_iff]
    omega
  · have h' : o < 0x41 := by omega
    clear h
    revert o
    decide

/-- A host turn that is not held is the host's next move. -/
theorem step_host {s : State} {m : HostMove} {ms : List HostMove} {ts : List Turn} (hc : configRefusal s.cfg = none)
    (ht : s.turns = .host :: ts) (he : s.ephase = .idle) (hm : s.host = m :: ms) :
    step s = hostMove m { s with turns := ts, host := ms } := by
  simp [step, hc, nextTurn, ht, takeTurn, hostTurn, he, hm]

/-- A sink turn with a transaction outstanding and an answer to come is that answer. -/
theorem step_sink {s : State} {x : SinkTxn} {a : SinkAnswer} {as : List SinkAnswer} {ts : List Turn}
    (hc : configRefusal s.cfg = none) (ht : s.turns = .sink :: ts) (hx : s.outstanding = some x)
    (hm : s.sink = a :: as) : step s = .next (sinkAnswers x a { s with turns := ts, sink := as }) := by
  have he : s.ephase ≠ .idle := by
    intro e
    simp [State.outstanding, e] at hx
  have h1 : step s = sinkTurn { s with turns := ts } := by simp only [step, hc, nextTurn, ht, takeTurn]
  have hx' : ({ s with turns := ts } : State).outstanding = some x := hx
  rw [h1]
  unfold sinkTurn
  rw [if_neg he, hx']
  simp only [hm]

/-- A reset turn is the reset of the block, and the sink log shows the transaction it abandons. -/
theorem resetTurn_eq (k : Nat) (s : State) :
    ∃ log, (s.outstanding = none ∧ log = s.sinkLog ∨
        ∃ x, s.outstanding = some x ∧ log = s.sinkLog ++ [⟨x, .abandoned k⟩]) ∧
      resetTurn k s = { s.resetBlock with sinkLog := log } := by
  unfold resetTurn
  cases h : s.outstanding with
  | none => exact ⟨_, .inl ⟨rfl, rfl⟩, rfl⟩
  | some x => exact ⟨_, .inr ⟨x, rfl, rfl⟩, rfl⟩

/-- The ways a step ends in a next state. -/
inductive StepCase (s : State) : State → Prop
  /-- No turn is to come. -/
  | quiet (h : s.turns = []) : StepCase s s
  /-- An agent that is held, or has nothing to do, lets its turn pass. -/
  | passed (u : Turn) (ts : List Turn) (h : s.turns = u :: ts) (hu : ∀ k, u ≠ .reset k) :
      StepCase s { s with turns := ts }
  /-- The host issues a legal command. -/
  | command (w : Word) (i : Instr) (ms : List HostMove) (ts : List Turn) (t : State) (h : s.turns = .host :: ts)
      (he : s.ephase = .idle) (hm : s.host = .write 32 (s.cfg.csrBase + 0x0C) w :: ms) (hd : decodeCmd w = .ok i)
      (hx : exec i { s with turns := ts, host := ms } = .next t) : StepCase s t
  /-- The host writes an illegal word to CMD. -/
  | illegal (w : Word) (e : Illegal) (ms : List HostMove) (ts : List Turn) (h : s.turns = .host :: ts)
      (he : s.ephase = .idle) (hm : s.host = .write 32 (s.cfg.csrBase + 0x0C) w :: ms)
      (hd : decodeCmd w = .error e) :
      StepCase s (({ s with turns := ts, host := ms } : State).finish .illegalCmd)
  /-- The host writes a register other than CMD. -/
  | store (bits addr : Nat) (v : Word) (r : Csr) (ms : List HostMove) (ts : List Turn) (h : s.turns = .host :: ts)
      (he : s.ephase = .idle) (hm : s.host = .write bits addr v :: ms) (ha : csrAccess s.cfg bits addr = some r)
      (hr : r ≠ .cmd) : StepCase s (({ s with turns := ts, host := ms } : State).csrStore v r)
  /-- The host reads a register. -/
  | load (bits addr : Nat) (r : Csr) (ms : List HostMove) (ts : List Turn) (h : s.turns = .host :: ts)
      (he : s.ephase = .idle) (hm : s.host = .read bits addr :: ms) (ha : csrAccess s.cfg bits addr = some r) :
      StepCase s { s with turns := ts, host := ms, readData := some (s.csrRead r) }
  /-- The host writes TXMEM. -/
  | txw (addr : Nat) (bytes : List Byte) (ms : List HostMove) (ts : List Turn) (h : s.turns = .host :: ts)
      (he : s.ephase = .idle) (hm : s.host = .txw addr bytes :: ms)
      (hl : bytes.length = 0 ∨ addr + bytes.length ≤ s.cfg.txmemSize) :
      StepCase s { s with turns := ts, host := ms, txmem := s.txmem.writeBytes addr bytes }
  /-- The source pushes a byte. -/
  | push (b : Byte) (ms : List SourceMove) (ts : List Turn) (h : s.turns = .source :: ts)
      (hm : s.source = .push b :: ms) (hl : s.rxCount < s.cfg.bufCap) :
      StepCase s (({ s with turns := ts, source := ms } : State).append b)
  /-- The source signals an input error. -/
  | inputError (ms : List SourceMove) (ts : List Turn) (h : s.turns = .source :: ts) (hm : s.source = .error :: ms) :
      StepCase s { s with turns := ts, source := ms, inErr := true }
  /-- The sink answers the outstanding transaction. -/
  | sink (x : SinkTxn) (a : SinkAnswer) (as : List SinkAnswer) (ts : List Turn) (h : s.turns = .sink :: ts)
      (he : s.ephase ≠ .idle) (hx : s.outstanding = some x) (hm : s.sink = a :: as) :
      StepCase s (sinkAnswers x a { s with turns := ts, sink := as })
  /-- Reset. -/
  | reset (k : Nat) (ts : List Turn) (h : s.turns = .reset k :: ts) :
      StepCase s (resetTurn k { s with turns := ts })

/-- A step that ends in a next state ends in one of the ways of `StepCase`. -/
theorem step_next {s t : State} (h : step s = .next t) : configRefusal s.cfg = none ∧ StepCase s t := by
  unfold step at h
  split at h
  · cases h
  rename_i hc
  refine ⟨hc, ?_⟩
  unfold nextTurn at h
  split at h
  · rename_i ht
    cases h
    exact .quiet ht
  rename_i u ts ht
  cases u with
  | host =>
    simp only [takeTurn, hostTurn] at h
    split at h
    · rename_i he
      split at h
      · cases h
        exact .passed _ _ ht (by simp)
      rename_i m ms hm
      cases m with
      | write bits addr v =>
        simp only [hostMove, hostWrite] at h
        split at h
        · cases h
        · rename_i ha
          obtain ⟨rfl, rfl⟩ := csrAccess_eq_cmd.1 ha
          unfold issue at h
          split at h
          · rename_i i hd
            exact .command v i ms ts t ht he hm hd h
          · rename_i e hd
            cases h
            exact .illegal v e ms ts ht he hm hd
        · rename_i r hr ha
          cases h
          exact .store bits addr v r ms ts ht he hm ha (fun e => hr e)
      | read bits addr =>
        simp only [hostMove, hostRead] at h
        split at h
        · cases h
        · rename_i r ha
          cases h
          cases r <;> exact .load bits addr _ ms ts ht he hm ha
      | txw addr bytes =>
        simp only [hostMove, hostTxw] at h
        split at h
        · rename_i hl
          cases h
          exact .txw addr bytes ms ts ht he hm hl
        · cases h
    · cases h
      exact .passed _ _ ht (by simp)
  | source =>
    simp only [takeTurn, sourceTurn] at h
    split at h
    · cases h
      exact .passed _ _ ht (by simp)
    · rename_i b ms hm
      split at h
      · rename_i hl
        cases h
        exact .push b ms ts ht hm hl
      · cases h
        exact .passed _ _ ht (by simp)
    · rename_i ms hm
      cases h
      exact .inputError ms ts ht hm
  | sink =>
    simp only [takeTurn, sinkTurn] at h
    split at h
    · cases h
      exact .passed _ _ ht (by simp)
    rename_i he
    split at h
    · cases h
    rename_i x hx
    split at h
    · cases h
      exact .passed _ _ ht (by simp)
    · rename_i a as hm
      cases h
      exact .sink x a as ts ht he hx hm
  | reset k =>
    simp only [takeTurn] at h
    cases h
    exact .reset k ts ht

/-- The ways a step faults. -/
inductive StepFault (s : State) : Fault → Prop
  /-- A command faults. -/
  | command (w : Word) (i : Instr) (ms : List HostMove) (ts : List Turn) (f : Fault) (h : s.turns = .host :: ts)
      (he : s.ephase = .idle) (hm : s.host = .write 32 (s.cfg.csrBase + 0x0C) w :: ms) (hd : decodeCmd w = .ok i)
      (hx : exec i { s with turns := ts, host := ms } = .fault f) : StepFault s f
  /-- A CSR write that is not admitted. -/
  | write (bits addr : Nat) (v : Word) (ms : List HostMove) (ts : List Turn) (h : s.turns = .host :: ts)
      (he : s.ephase = .idle) (hm : s.host = .write bits addr v :: ms) (ha : csrAccess s.cfg bits addr = none) :
      StepFault s .busError
  /-- A CSR read that is not admitted. -/
  | read (bits addr : Nat) (ms : List HostMove) (ts : List Turn) (h : s.turns = .host :: ts)
      (he : s.ephase = .idle) (hm : s.host = .read bits addr :: ms) (ha : csrAccess s.cfg bits addr = none) :
      StepFault s .busError
  /-- A TXMEM write at an address that does not exist. -/
  | txw (addr : Nat) (bytes : List Byte) (ms : List HostMove) (ts : List Turn) (h : s.turns = .host :: ts)
      (he : s.ephase = .idle) (hm : s.host = .txw addr bytes :: ms) (hl : s.cfg.txmemSize < addr + bytes.length) :
      StepFault s .txmemRange
  /-- W4 is outstanding and its payload is not all written. -/
  | sink (ts : List Turn) (h : s.turns = .sink :: ts) (he : s.ephase = .w4) (hx : s.txPayload = none) :
      StepFault s .uninitTxmem

/-- A step that faults does so in one of the ways of `StepFault`. -/
theorem step_fault {s : State} {f : Fault} (h : step s = .fault f) :
    configRefusal s.cfg = none ∧ StepFault s f := by
  unfold step at h
  split at h
  · cases h
  rename_i hc
  refine ⟨hc, ?_⟩
  unfold nextTurn at h
  split at h
  · cases h
  rename_i u ts ht
  cases u with
  | host =>
    simp only [takeTurn, hostTurn] at h
    split at h
    · rename_i he
      split at h
      · cases h
      rename_i m ms hm
      cases m with
      | write bits addr v =>
        simp only [hostMove, hostWrite] at h
        split at h
        · rename_i ha
          cases h
          exact .write bits addr v ms ts ht he hm ha
        · rename_i ha
          obtain ⟨rfl, rfl⟩ := csrAccess_eq_cmd.1 ha
          unfold issue at h
          split at h
          · rename_i i hd
            exact .command v i ms ts f ht he hm hd h
          · cases h
        · cases h
      | read bits addr =>
        simp only [hostMove, hostRead] at h
        split at h
        · rename_i ha
          cases h
          exact .read bits addr ms ts ht he hm ha
        · cases h
      | txw addr bytes =>
        simp only [hostMove, hostTxw] at h
        split at h
        · cases h
        · rename_i hl
          cases h
          exact .txw addr bytes ms ts ht he hm (by simp only [not_or, Nat.not_le] at hl; exact hl.2)
    · cases h
  | source => simp only [takeTurn] at h; cases h
  | sink =>
    simp only [takeTurn, sinkTurn] at h
    split at h
    · cases h
    rename_i he
    split at h
    · rename_i hx
      cases h
      rcases State.outstanding_eq_none hx with e | ⟨e, hp⟩
      · exact (he e).elim
      · exact .sink ts ht e hp
    split at h <;> cases h
  | reset k => simp only [takeTurn] at h; cases h

end Sys2Proof.Machine
end

