-- ==== Sys2Proof/Tests/Slice0.lean ====
section
/-! SUPPORT. Words written out from the spec's encodings, ill-formed terms, one-step tests from 95_test_vectors.md, and a witness for the hypotheses of every statement. -/

namespace Sys2Proof.Tests

open Sys2Proof.Machine Sys2Proof.Claims

/-! ## Well-formedness: one ill-formed term for each check -/

theorem test_ill_formed_refused :
    ¬ WellFormed (.rdpix 65536) ∧ ¬ WellFormed (.rddata 65536) ∧ ¬ WellFormed (.frameSetPixelColors 1#8 65536) ∧
    ¬ WellFormed (.frameSystemExclusive 1#8 65536) := by decide

theorem test_well_formed_bounds :
    WellFormed (.rdpix 65535) ∧ WellFormed (.rddata 65535) ∧ WellFormed (.frameSetPixelColors 1#8 65535) ∧
    WellFormed (.frameSystemExclusive 1#8 0) := by decide

/-! ## Decoding: words written out from 30_encoding.md R90, R92, R95, R97, R98, bits 31 down to 0 -/

theorem test_decode_recv : decodeCmd 0b00000000000000000000000000000001#32 = .ok .recv := rfl
theorem test_decode_done : decodeCmd 0b00000000000000000000000000000010#32 = .ok .done := rfl
theorem test_decode_skip : decodeCmd 0b00000000000000000000000000000011#32 = .ok .skip := rfl
theorem test_decode_rdpix : decodeCmd 0b00000000000010010000000000000100#32 = .ok (.rdpix 9) := rfl
theorem test_decode_rddata : decodeCmd 0b10000000000000010000000000000101#32 = .ok (.rddata 32769) := rfl
theorem test_decode_send : decodeCmd 0b00000000000000000000000000001000#32 = .ok .send := rfl
theorem test_decode_length : decodeCmd 0b00000000000000000000000100001001#32 = .ok (.length .rx) := rfl
theorem test_decode_isvalid : decodeCmd 0b00000000000000000000000000001010#32 = .ok (.isvalid .tx) := rfl
theorem test_decode_isbcast : decodeCmd 0b00000000000000000000000100001011#32 = .ok (.isbcast .rx) := rfl
theorem test_decode_set_pixel_colors :
    decodeFrame 0b00000100000000000000000000011110#32 = .ok (.frameSetPixelColors 4#8 30) := rfl
theorem test_decode_system_exclusive :
    decodeFrame 0b00000100111111110000000000001100#32 = .ok (.frameSystemExclusive 4#8 12) := rfl

/-- The words of MSG16, MSG17, ENC14 and DEC23 are illegal, and a tag of S3 is unknown. -/
theorem test_decode_refuses :
    decodeCmd 0x00000209#32 = .error .mustBeZero ∧ decodeCmd 0x00010009#32 = .error .mustBeZero ∧
    decodeCmd 0x00000108#32 = .error .mustBeZero ∧ decodeCmd 0x00000104#32 = .error .mustBeZero ∧
    decodeCmd 0x00000000#32 = .error .opcode ∧ decodeCmd 0x00000006#32 = .error .opcode ∧
    decodeFrame 0x07010005#32 = .error .unknownTag ∧ decodeFrameBytes [4#8, 0#8, 0#8] = .error .shortHeader :=
  ⟨rfl, rfl, rfl, rfl, rfl, rfl, rfl, rfl⟩

/-- No word is a word of two rows of one space: two rows differ in a bit both fix. -/
theorem test_rows_disjoint :
    cmdRows.Pairwise (fun r q => r.pattern &&& (r.mask &&& q.mask) ≠ q.pattern &&& (r.mask &&& q.mask)) ∧
    frameRows.Pairwise (fun r q => r.pattern &&& (r.mask &&& q.mask) ≠ q.pattern &&& (r.mask &&& q.mask)) := by
  decide

/-- The table's words reach the instruction of their row, a header in its own wire order. -/
theorem test_table_words :
    decodeTableWord 32 0x00000001 = some .recv ∧ decodeTableWord 32 0x00000109 = some (.length .rx) ∧
    decodeTableWord 32 0x00000000 = some (.frameSetPixelColors 0#8 0) ∧
    decodeTableWord 32 0x04FF000C = some (.frameSystemExclusive 4#8 12) ∧ decodeTableWord 32 0x00010000 = none := by
  decide

/-! ## Small states -/

/-- Whether an outcome is a next state that passes the test `p`. -/
def goesTo (r : Result) (p : State → Bool) : Bool :=
  match r with
  | .next t => p t
  | .fault _ => false
  | .refused _ => false

/-- Reset, with these bytes buffered. -/
def buffered (bs : List Byte) : State := { State.reset with rxbuf := bs }

/-- It is the host's turn, and this is its move. -/
def hostTo (m : HostMove) (s : State) : State := { s with turns := [.host], host := [m] }

/-- It is the host's turn, and it writes this word to CMD. -/
def issuing (w : Word) (s : State) : State := hostTo (.write 32 0x0C w) s

/-- The bytes of DEC8: one pixel and one byte more. -/
def pixelFrame : List Byte := [0x01#8, 0x00#8, 0x00#8, 0x04#8, 0x10#8, 0x20#8, 0x30#8, 0x40#8]

/-- DEC8 after its RECV. -/
def pixels : State :=
  { buffered pixelFrame with rxHdr := 0x01000004#32, rxPixcnt := 1#16, dstate := .delivering, code := .delivered }

/-- A SystemExclusive frame with id AB CD and one data byte. -/
def sysexFrame : List Byte := [0x00#8, 0xFF#8, 0x00#8, 0x03#8, 0xAB#8, 0xCD#8, 0x77#8]

/-- That frame delivered. -/
def sysex : State :=
  { buffered sysexFrame with
    rxHdr := 0x00FF0003#32, rxSysid := 0xABCD#16, rxDlen := 1#16, dstate := .delivering, code := .delivered }

/-- DEC12 after its RECV. -/
def held : State :=
  { buffered [0x05#8, 0x7F#8, 0x00#8, 0x00#8] with
    rxHdr := 0x057F0000#32, dstate := .errHeld, code := .unrecognized }

/-- A TX message of one pixel on channel 4, all of it written. -/
def onePixel : State :=
  { State.reset with txChan := 4#8, txCount := 1#24, txmem := [(0, 9#8), (1, 8#8), (2, 7#8)] }

/-- The message `onePixel` describes. -/
def onePixelMessage : Message := ⟨4#8, .setPixelColors [⟨9#8, 8#8, 7#8⟩]⟩

/-- Its SEND in flight at a phase, and the sink's turn with these answers. -/
def sending (p : EPhase) (as : List SinkAnswer) : State :=
  { onePixel with ephase := p, turns := [.sink], sink := as }

/-! ## One step of each instruction, from the vectors of 95_test_vectors.md -/

/-- DEC8. -/
theorem test_recv_delivers :
    goesTo (step (issuing 0x00000001#32 (buffered pixelFrame)))
      (fun t => t.statusWord == 0x00000101#32 && t.rxPixcnt == 1#16) = true := by decide

/-- DEC25: an input error is reported before the held frame is looked at. -/
theorem test_recv_input_error :
    goesTo (exec .recv { held with inErr := true }) (fun t => t.statusWord == 0x00000010#32 && t.rxHdr == 0#32) = true := by
  decide

/-- DEC20: DONE leaves the second frame at the front. -/
theorem test_done_consumes :
    goesTo (exec .done { pixels with rxbuf := pixelFrame ++ [0x0B#8, 0x00#8] })
      (fun t => t.statusWord == 0#32 && t.rxbuf == [0x0B#8, 0x00#8]) = true := by decide

/-- DEC15. -/
theorem test_done_idle : goesTo (exec .done State.reset) (fun t => t.statusWord == 0x00000021#32) = true := by decide

/-- DEC26: the byte pushed behind a held frame stays. -/
theorem test_skip_consumes :
    goesTo (exec .skip { held with rxbuf := held.rxbuf ++ [0x99#8] })
      (fun t => t.statusWord == 0#32 && t.rxbuf == [0x99#8]) = true := by decide

/-- DEC16. -/
theorem test_skip_delivering : goesTo (exec .skip pixels) (fun t => t.statusWord == 0x00000121#32) = true := by decide

/-- DEC8: R is the most significant byte used. -/
theorem test_rdpix_packs : goesTo (exec (.rdpix 0) pixels) (fun t => t.result == 0x00102030#32) = true := by decide

/-- DEC8: the dropped byte is no pixel. -/
theorem test_rdpix_bad_index : goesTo (exec (.rdpix 1) pixels) (fun t => t.statusWord == 0x00000122#32) = true := by
  decide

/-- R202: data byte 0 is the one after the id. -/
theorem test_rddata_reads : goesTo (exec (.rddata 0) sysex) (fun t => t.result == 0x00000077#32) = true := by decide

/-- DEC24. -/
theorem test_rddata_pixels : goesTo (exec (.rddata 0) pixels) (fun t => t.statusWord == 0x00000122#32) = true := by
  decide

/-- ENC17: OVERSIZED is found before BAD_ADDR. -/
theorem test_send_oversized :
    goesTo (exec .send { State.reset with txCount := 21846#24, txBase := 0xFFFFFFFF#32 })
      (fun t => t.statusWord == 0x00000013#32 && t.ephase == .idle) = true := by decide

/-- ENC9: a base equal to TXMEM_SIZE is no BAD_ADDR for a message without payload. -/
theorem test_send_edge :
    goesTo (exec .send { State.reset with txBase := 65536#32 }) (fun t => t.ephase == .w1) = true := by decide

/-- MSG5: the largest count does not wrap. -/
theorem test_length_exact :
    goesTo (exec (.length .tx) { State.reset with txCount := 0xFFFFFF#24 }) (fun t => t.result == 0x02FFFFFD#32) = true := by
  decide

/-- MSG14's rule: the RX length leaves out the dropped bytes. -/
theorem test_length_rx :
    goesTo (exec (.length .rx) pixels) (fun t => t.result == 3#32 && t.statusWord == 0x00000100#32) = true := by decide

/-- MSG8. -/
theorem test_isvalid_over :
    goesTo (exec (.isvalid .tx) { State.reset with txKind := 1#1, txCount := 65534#24 }) (fun t => t.result == 0#32) = true := by
  decide

/-- MSG7: the bound is inclusive. -/
theorem test_isvalid_bound :
    goesTo (exec (.isvalid .tx) { State.reset with txKind := 1#1, txCount := 65533#24 }) (fun t => t.result == 1#32) = true := by
  decide

/-- MSG15: a frame on channel 0. -/
theorem test_isbcast_rx : goesTo (exec (.isbcast .rx) sysex) (fun t => t.result == 1#32) = true := by decide

/-- MSG13: nothing delivered, RESULT stays. -/
theorem test_isbcast_idle :
    goesTo (exec (.isbcast .rx) { State.reset with result := 7#32 })
      (fun t => t.result == 7#32 && t.statusWord == 0x00000021#32) = true := by decide

/-- DEC7: one payload byte is no pixel and no error. -/
theorem test_frame_pixels :
    goesTo (exec (.frameSetPixelColors 1#8 1) (buffered [0x01#8, 0x00#8, 0x00#8, 0x01#8, 0xAA#8]))
      (fun t => t.statusWord == 0x00000101#32 && t.rxPixcnt == 0#16) = true := by decide

/-- DEC4's rule: a byte short. -/
theorem test_frame_pixels_short :
    goesTo (exec (.frameSetPixelColors 1#8 1) (buffered [0x01#8, 0x00#8, 0x00#8, 0x01#8]))
      (fun t => t.statusWord == 0x00000003#32 && t.rxHdr == 0x01000001#32) = true := by decide

/-- DEC11: an empty data block. -/
theorem test_frame_sysex :
    goesTo (exec (.frameSystemExclusive 3#8 2) (buffered [0x03#8, 0xFF#8, 0x00#8, 0x02#8, 0xAB#8, 0xCD#8]))
      (fun t => t.statusWord == 0x00000101#32 && t.rxSysid == 0xABCD#16 && t.rxDlen == 0#16) = true := by decide

/-- DEC10. -/
theorem test_frame_sysex_malformed :
    goesTo (exec (.frameSystemExclusive 3#8 1) (buffered [0x03#8, 0xFF#8, 0x00#8, 0x01#8, 0x77#8]))
      (fun t => t.statusWord == 0x00000611#32 && t.rxHdr == 0x03FF0001#32) = true := by decide

/-! ## Other steps -/

/-- ENC10's last step: W2 fails and the SEND ends without a flush. -/
theorem test_sink_failure :
    goesTo (step (sending .w2 [.fail 0]))
      (fun t => t.statusWord == 0x00000010#32 && t.ephase == .idle && sinkStream t.sinkLog == []) = true := by decide

/-- MSG12. -/
theorem test_write_masks :
    goesTo (step (hostTo (.write 32 0x38 0xFFFFFFFF#32) State.reset)) (fun t => t.csrRead .txCount == 0x00FFFFFF#32) =
      true := by decide

/-- DEC19: STATUS after an input error in DELIVERING. -/
theorem test_read_status :
    goesTo (step (hostTo (.read 32 0x10) { pixels with inErr := true })) (fun t => t.readData == some 0x00000901#32) =
      true := by decide

/-- The probe's state runs its instruction in the next step: a command, and a frame with its payload of zeros. -/
theorem test_fetch_word :
    goesTo (step (State.reset.withFetchWord 32 0x00000009)) (fun t => t.code == .ok && t.turns == []) = true ∧
    goesTo (step (State.reset.withFetchWord 32 0x04000003)) (fun t => t.code == .delivered && t.rxPixcnt == 1#16) = true ∧
    goesTo (step (State.reset.withFetchWord 32 0x00FF0000)) (fun t => t.code == .malformed) = true := by decide

/-! ## Witnesses: states and operands that meet the hypotheses of each statement -/

theorem pixels_inv : pixels.Inv := ⟨by decide, by decide, by decide, by decide, by decide⟩
theorem sysex_inv : sysex.Inv := ⟨by decide, by decide, by decide, by decide, by decide⟩
theorem held_inv : held.Inv := ⟨by decide, by decide, by decide, by decide, by decide⟩

theorem sending_w1_inv : (sending .w1 []).Inv := ⟨by decide, by decide, by decide, by decide, by decide⟩
theorem sending_w4_inv : (sending .w4 []).Inv := ⟨by decide, by decide, by decide, by decide, by decide⟩

theorem witness_DecodeOfEncode : WellFormed (.rdpix 65535) ∧ WellFormed (.frameSystemExclusive 0xFF#8 65535) := by decide

theorem witness_EncodeOfDecode :
    decode .cmd 0xFFFF0004#32 = .ok (.rdpix 65535) ∧ decode .frame 0xFFFFFFFF#32 = .ok (.frameSystemExclusive 0xFF#8 65535) :=
  ⟨rfl, rfl⟩

theorem witness_CommandLegalIffTableRow :
    0 < 65536 ∧ 65535 < 65536 ∧ decodeCmd 0xFFFF0005#32 = .ok (.rddata 65535) := ⟨by decide, by decide, rfl⟩

theorem witness_IllegalWordOnlySetsCode :
    CommandTurn (issuing 0x00000006#32 State.reset) 0x00000006#32 [] [] ∧ IllegalWord 0x00000006#32 ∧
    IllegalWord 0x80000008#32 ∧ IllegalWord 0x00000104#32 ∧ IllegalWord 0x00000209#32 :=
  ⟨by decide, by decide, by decide, by decide, by decide⟩

theorem witness_LengthFieldBigEndian :
    (sending .w3 []).ephase = .w3 ∧ (sending .w3 []).txLength ≤ 65535 ∧
    ({ sending .w3 [] with txCount := 21845#24 } : State).txLength = 65535 := by decide

theorem witness_StepRunsCommand :
    CommandTurn (issuing 0x00000001#32 State.reset) 0x00000001#32 [] [] ∧ decodeCmd 0x00000001#32 = .ok .recv :=
  ⟨by decide, rfl⟩

theorem witness_RecvRunsFrontFrame :
    decodeFrameBytes (buffered pixelFrame).rxbuf = .ok (.frameSetPixelColors 1#8 4) ∧
    decodeFrameBytes (buffered sysexFrame).rxbuf = .ok (.frameSystemExclusive 0#8 3) := ⟨rfl, rfl⟩

/-- For LENGTH, ISVALID and ISBCAST: a state that delivers, one that does not, and words with each OPC and its
must-be-zero field set at both ends. -/
theorem witness_queries :
    pixels.dstate = .delivering ∧ State.reset.dstate ≠ .delivering ∧
    (((0x00000209#32 : Word).extractLsb' 0 8 = 0x09#8 ∧ (0x00000209#32 : Word).extractLsb' 9 23 ≠ 0#23) ∧
      (0x80000009#32 : Word).extractLsb' 0 8 = 0x09#8 ∧ (0x80000009#32 : Word).extractLsb' 9 23 ≠ 0#23) ∧
    (((0x0000020A#32 : Word).extractLsb' 0 8 = 0x0A#8 ∧ (0x0000020A#32 : Word).extractLsb' 9 23 ≠ 0#23) ∧
      (0x8000000A#32 : Word).extractLsb' 0 8 = 0x0A#8 ∧ (0x8000000A#32 : Word).extractLsb' 9 23 ≠ 0#23) ∧
    (((0x0000020B#32 : Word).extractLsb' 0 8 = 0x0B#8 ∧ (0x0000020B#32 : Word).extractLsb' 9 23 ≠ 0#23) ∧
      (0x8000000B#32 : Word).extractLsb' 0 8 = 0x0B#8 ∧ (0x8000000B#32 : Word).extractLsb' 9 23 ≠ 0#23) :=
  ⟨by decide, by decide, by decide, by decide, by decide⟩

theorem witness_IsvalidCommand : sysex.Inv ∧ sysex.dstate = .delivering := ⟨sysex_inv, rfl⟩

theorem witness_QueriesAnswerTheMessage :
    onePixel.txMessage = some onePixelMessage ∧
    pixels.rxMessage = some ⟨1#8, .setPixelColors [⟨0x10#8, 0x20#8, 0x30#8⟩]⟩ ∧
    sysex.rxMessage = some ⟨0#8, .systemExclusive 0xAB#8 0xCD#8 [0x77#8]⟩ := by decide

theorem witness_SendStartsFirstWrite :
    (if onePixel.txKind = 0#1 then 3 * onePixel.txCount.toNat else 2 + onePixel.txCount.toNat) ≤ 65535 ∧
    onePixel.txBase.toNat + (if onePixel.txKind = 0#1 then 3 * onePixel.txCount.toNat else onePixel.txCount.toNat) ≤
      onePixel.cfg.txmemSize ∧
    (∀ j < 3, onePixel.txmem.read (onePixel.txBase.toNat + j) ≠ none) := by decide

/-- ENC5, ENC8 and ENC13, one state for each clause. -/
theorem witness_SendChecksInOrder :
    65535 < ({ State.reset with txCount := 21846#24 } : State).txLength ∧
    (({ State.reset with txBase := 65537#32 } : State).txLength ≤ 65535 ∧
      State.reset.cfg.txmemSize < ({ State.reset with txBase := 65537#32 } : State).txBase.toNat + 0) ∧
    (({ onePixel with txmem := [(0, 9#8), (1, 8#8)] } : State).txLength = 3 ∧
      onePixel.txBase.toNat + 3 ≤ onePixel.cfg.txmemSize ∧ Memory.read [(0, 9#8), (1, 8#8)] (0 + 2) = none) ∧
    (0x00000108#32 : Word).extractLsb' 0 8 = 0x08#8 ∧ (0x00000108#32 : Word).extractLsb' 8 24 ≠ 0#24 := by decide

theorem witness_SinkAnswerRunsThePhase :
    (∀ p ∈ [EPhase.w1, .w2, .w3, .w4, .flush], SinkGives (sending p [.ok]) .ok [] [] ∧ (sending p [.ok]).ephase = p) ∧
    (sending .w4 [.ok]).txPayload = some [9#8, 8#8, 7#8] ∧ SinkGives (sending .w2 [.fail 0]) (.fail 0) [] [] ∧
    (sending .w2 [.fail 0]).outstanding = some (.write [0#8]) := by decide

theorem witness_SinkAnswersAreFree :
    (sending .w1 []).Inv ∧ TurnOf (sending .w1 []) .sink [] ∧ (sending .w1 []).ephase ≠ .idle :=
  ⟨sending_w1_inv, by decide, by decide⟩

/-- The host is about to issue SEND, and five `ok` answers are to come. -/
def sendReady : State :=
  { issuing 0x00000008#32 onePixel with
    turns := [.host, .sink, .sink, .sink, .sink, .sink], sink := [.ok, .ok, .ok, .ok, .ok] }

theorem witness_SendWritesTheEncodedMessage :
    CommandTurn sendReady 0x00000008#32 [] [.sink, .sink, .sink, .sink, .sink] ∧
    sendReady.txMessage = some onePixelMessage ∧ onePixelMessage.length ≤ 65535 ∧
    sendReady.txBase.toNat + sendReady.txMemBytes ≤ sendReady.cfg.txmemSize ∧
    sendReady.sink = .ok :: .ok :: .ok :: .ok :: .ok :: [] := by decide

theorem witness_FailedSendLeavesAnyPrefix :
    CommandTurn (issuing 0x00000008#32 onePixel) 0x00000008#32 [] [] ∧
    (issuing 0x00000008#32 onePixel).txMessage = some onePixelMessage ∧ onePixelMessage.length ≤ 65535 ∧
    (issuing 0x00000008#32 onePixel).txBase.toNat + (issuing 0x00000008#32 onePixel).txMemBytes ≤ 65536 ∧
    0 ≤ onePixelMessage.encode.length ∧ 7 ≤ onePixelMessage.encode.length := by decide

theorem witness_FailedSendIsNotSticky :
    (sending .w3 [.fail 1]).ephase ≠ .idle ∧ SinkGives (sending .w3 [.fail 1]) (.fail 1) [] [] ∧
    (∃ t, step (sending .w3 [.fail 1]) = .next t) ∧
    ∃ u, exec .send { sending .w3 [.fail 1] with ephase := .idle, sink := [], turns := [] } = .next u :=
  ⟨by decide, by decide, ⟨_, rfl⟩, ⟨_, rfl⟩⟩

theorem witness_LengthIsAccurate :
    (∃ t, exec .send onePixel = .next t ∧ t.ephase = .w1) ∧ onePixel.ephase = .idle ∧
    65535 < ({ State.reset with txCount := 21846#24 } : State).txLength := ⟨⟨_, rfl, rfl⟩, rfl, by decide⟩

theorem witness_SinkWritesAreNotEmpty :
    (sending .w4 []).Inv ∧ (sending .w4 []).outstanding = some (.write [9#8, 8#8, 7#8]) ∧
    SinkGives { sending .w3 [.ok] with txCount := 0#24 } .ok [] [] ∧
    ({ sending .w3 [.ok] with txCount := 0#24 } : State).txLength = 0 :=
  ⟨sending_w4_inv, by decide, by decide, by decide⟩

theorem witness_HostHeldDuringSend :
    TurnOf { sending .w1 [] with turns := [.host] } .host [] ∧ (sending .w1 []).ephase ≠ .idle := by decide

theorem witness_SendInFlightKeepsItsMessage :
    (sending .w2 [.ok]).ephase ≠ .idle ∧ (∃ t, step (sending .w2 [.ok]) = .next t) ∧
    ∀ k ts, (sending .w2 [.ok]).turns ≠ .reset k :: ts := ⟨by decide, ⟨_, rfl⟩, fun _ _ h => by cases h⟩

theorem witness_SendTouchesOnlyTheSink :
    (∃ t, exec .send onePixel = .next t) ∧ TurnOf (sending .w2 [.ok]) .sink [] ∧ ∃ t, step (sending .w2 [.ok]) = .next t :=
  ⟨⟨_, rfl⟩, by decide, ⟨_, rfl⟩⟩

theorem witness_SinkStreamOfTheLog : 0 ≤ [1#8, 2#8].length ∧ 2 ≤ [1#8, 2#8].length := by decide

/-- A state for each clause of RECV: fewer than 4 bytes, a header with no payload, and ERRHELD. -/
theorem witness_RecvCommand :
    pixels.dstate = .delivering ∧ (held.dstate ≠ .delivering ∧ ({ held with inErr := true } : State).inErr = true) ∧
    ((buffered [1#8, 0#8, 0#8]).inErr = false ∧ (buffered [1#8, 0#8, 0#8]).rxbuf.length < 4) ∧
    ((buffered [1#8, 0#8, 0#8, 0#8]).rxbuf = 1#8 :: 0#8 :: 0#8 :: 0#8 :: [] ∧
      0 = (0#8).toNat * 256 + (0#8).toNat ∧ (buffered [1#8, 0#8, 0#8, 0#8]).dstate ≠ .delivering) ∧
    (held.R50 ∧ held.dstate = .errHeld ∧ held.inErr = false ∧ ∃ t, exec .recv held = .next t) ∧
    (Instr.recv.space = .cmd ∧ Instr.recv ≠ .done ∧ Instr.recv ≠ .skip) ∧
    (0x00000101#32 : Word).extractLsb' 0 8 = 0x01#8 ∧ (0x00000101#32 : Word).extractLsb' 8 24 ≠ 0#24 :=
  ⟨by decide, by decide, by decide, by decide, ⟨by decide, by decide, by decide, _, rfl⟩, by decide, by decide, by decide⟩

theorem witness_SetPixelColorsFrame :
    4 < 65536 ∧ (buffered pixelFrame).dstate ≠ .delivering ∧ (buffered pixelFrame).inErr = false ∧
    4 + 4 ≤ (buffered pixelFrame).rxbuf.length ∧ 0 < 4 / 3 ∧ (buffered pixelFrame).rxbuf[4 + 3 * 0]? = some 0x10#8 ∧
    (buffered pixelFrame).rxbuf[5 + 3 * 0]? = some 0x20#8 ∧ (buffered pixelFrame).rxbuf[6 + 3 * 0]? = some 0x30#8 := by
  decide

/-- Payload lengths 1 and 2 stand on the two sides of MALFORMED; 3 has a data byte. -/
theorem witness_SystemExclusiveFrame :
    (buffered sysexFrame).dstate ≠ .delivering ∧ (buffered sysexFrame).inErr = false ∧
    4 + 3 ≤ (buffered sysexFrame).rxbuf.length ∧ 1 < 2 ∧ 2 ≤ 2 ∧ (buffered sysexFrame).rxbuf[4]? = some 0xAB#8 ∧
    (buffered sysexFrame).rxbuf[5]? = some 0xCD#8 ∧ 0 < 3 - 2 ∧ (buffered sysexFrame).rxbuf[6 + 0]? = some 0x77#8 := by
  decide

theorem witness_FramesWaitOrReport :
    (Instr.frameSetPixelColors 1#8 65535 = .frameSetPixelColors 1#8 65535 ∧ (0x00#8 : Byte) = 0x00#8) ∧
    pixels.dstate = .delivering ∧ (held.dstate ≠ .delivering ∧ ({ held with inErr := true } : State).inErr = true) ∧
    (buffered pixelFrame).dstate ≠ .delivering ∧ (buffered pixelFrame).rxbuf.length < 4 + 65535 := by decide

theorem witness_DoneCommand :
    (pixels.R50 ∧ pixels.dstate = .delivering ∧
      4 + (pixels.rxHdr.extractLsb' 0 16).toNat ≤ pixels.rxbuf.length) ∧ held.dstate ≠ .delivering ∧
    (∃ t, exec .done pixels = .next t) ∧ (0x00000102#32 : Word).extractLsb' 0 8 = 0x02#8 ∧
    (0x00000102#32 : Word).extractLsb' 8 24 ≠ 0#24 :=
  ⟨by decide, by decide, ⟨_, rfl⟩, by decide, by decide⟩

theorem witness_SkipCommand :
    (held.R50 ∧ held.dstate = .errHeld ∧ 4 + (held.rxHdr.extractLsb' 0 16).toNat ≤ held.rxbuf.length) ∧
    pixels.dstate ≠ .errHeld ∧
    (({ held with inErr := true } : State).R50 ∧ ({ held with inErr := true } : State).dstate = .errHeld ∧
      ({ held with inErr := true } : State).inErr = true) ∧
    (0x00000103#32 : Word).extractLsb' 0 8 = 0x03#8 ∧ (0x00000103#32 : Word).extractLsb' 8 24 ≠ 0#24 :=
  ⟨by decide, by decide, ⟨by decide, rfl, rfl⟩, by decide, by decide⟩

/-- Index 0 is the last pixel and index 1 the first that is none; the same for the data byte. -/
theorem witness_reads :
    held.dstate ≠ .delivering ∧ (pixels.dstate = .delivering ∧ pixels.rxPixcnt.toNat ≤ 1 ∧ 0 < pixels.rxPixcnt.toNat) ∧
    (pixels.rxbuf[4 + 3 * 0]? = some 0x10#8 ∧ pixels.rxbuf[5 + 3 * 0]? = some 0x20#8 ∧
      pixels.rxbuf[6 + 3 * 0]? = some 0x30#8) ∧ hdrTag pixels.rxHdr = 0x00#8 ∧
    (sysex.dstate = .delivering ∧ sysex.rxDlen.toNat ≤ 1 ∧ 0 < sysex.rxDlen.toNat) ∧
    sysex.rxbuf[6 + 0]? = some 0x77#8 ∧ hdrTag sysex.rxHdr = 0xFF#8 ∧
    (((0x00000104#32 : Word).extractLsb' 0 8 = 0x04#8 ∧ (0x00000104#32 : Word).extractLsb' 8 8 ≠ 0#8) ∧
      (0x00008004#32 : Word).extractLsb' 0 8 = 0x04#8 ∧ (0x00008004#32 : Word).extractLsb' 8 8 ≠ 0#8) ∧
    (((0x00000105#32 : Word).extractLsb' 0 8 = 0x05#8 ∧ (0x00000105#32 : Word).extractLsb' 8 8 ≠ 0#8) ∧
      (0x00008005#32 : Word).extractLsb' 0 8 = 0x05#8 ∧ (0x00008005#32 : Word).extractLsb' 8 8 ≠ 0#8) :=
  ⟨by decide, by decide, by decide, by decide, by decide, by decide, by decide, by decide, by decide⟩

theorem witness_RdpixCommand : pixels.Inv ∧ pixels.dstate = .delivering ∧ sysex.Inv ∧ hdrTag sysex.rxHdr = 0xFF#8 :=
  ⟨pixels_inv, rfl, sysex_inv, rfl⟩

theorem witness_RddataCommand : sysex.Inv ∧ sysex.dstate = .delivering ∧ pixels.Inv ∧ hdrTag pixels.rxHdr = 0x00#8 :=
  ⟨sysex_inv, rfl, pixels_inv, rfl⟩

/-- Two states that differ in DSTATE alone, and a header with its payload still to come. -/
theorem witness_RecvIndependentOfChunking :
    (held.dstate ≠ .delivering ∧ ({ held with dstate := .idle } : State).dstate ≠ .delivering ∧
      held.rxbuf = ({ held with dstate := .idle } : State).rxbuf ∧ ∃ t, exec .recv held = .next t) ∧
    (∀ h, headerOf (buffered [1#8, 0#8, 0#8, 1#8]).rxbuf = some h →
      (buffered [1#8, 0#8, 0#8, 1#8]).rxbuf.length < 4 + (h.extractLsb' 0 16).toNat) ∧
    ∃ t, exec .recv (buffered [1#8, 0#8, 0#8, 1#8]) = .next t ∧ t.code = .incompletePayload :=
  ⟨⟨by decide, by decide, rfl, _, rfl⟩, fun h e => by cases e; decide, _, rfl, rfl⟩

theorem witness_FullBufferHoldsAFrame :
    configRefusal (buffered (List.replicate 65539 0#8)).cfg = none ∧
    (buffered (List.replicate 65539 0#8)).rxbuf.length = (buffered (List.replicate 65539 0#8)).cfg.bufCap ∧
    (buffered (List.replicate 65539 0#8)).dstate ≠ .delivering :=
  ⟨by decide, List.length_replicate, fun h => by cases h⟩

theorem witness_RecvDeliversTheEncodedMessage :
    onePixelMessage.length ≤ 65535 ∧ (buffered (onePixelMessage.encode ++ [1#8])).dstate ≠ .delivering ∧
    (buffered (onePixelMessage.encode ++ [1#8])).inErr = false := by decide

/-- SEND, five answers, seven pushes, RECV. -/
def tripReady : State :=
  { onePixel with
    turns := .host :: (List.replicate 5 .sink ++ (List.replicate 7 .source ++ .host :: []))
    host := [.write 32 0x0C 0x00000008#32, .write 32 0x0C 0x00000001#32]
    sink := [.ok, .ok, .ok, .ok, .ok]
    source := onePixelMessage.encode.map .push }

theorem witness_RoundTrip :
    CommandTurn tripReady 0x00000008#32 [.write 32 (tripReady.cfg.csrBase + 0x0C) 0x00000001#32]
      (List.replicate 5 .sink ++ (List.replicate onePixelMessage.encode.length .source ++ .host :: [])) ∧
    tripReady.txMessage = some onePixelMessage ∧ onePixelMessage.length ≤ 65535 ∧
    tripReady.txBase.toNat + tripReady.txMemBytes ≤ tripReady.cfg.txmemSize ∧
    tripReady.sink = .ok :: .ok :: .ok :: .ok :: .ok :: [] ∧
    tripReady.source = onePixelMessage.encode.map .push ++ [] ∧ tripReady.rxbuf = [] ∧ tripReady.dstate = .idle ∧
    tripReady.inErr = false := by decide

theorem witness_DecoderCommandsFrame :
    (∃ t, exec .recv (buffered pixelFrame) = .next t) ∧ (∃ t, exec .done pixels = .next t) ∧
    (∃ t, exec .skip held = .next t) ∧ (∃ t, exec (.frameSetPixelColors 1#8 4) (buffered pixelFrame) = .next t) ∧
    ∃ t, exec (.frameSystemExclusive 0#8 3) (buffered sysexFrame) = .next t :=
  ⟨⟨_, rfl⟩, ⟨_, rfl⟩, ⟨_, rfl⟩, ⟨_, rfl⟩, ⟨_, rfl⟩⟩

theorem witness_ReadAndQueryFrame :
    (returnsValue (.rdpix 0) = true ∧ ∃ t, exec (.rdpix 0) pixels = .next t) ∧
    ∃ t, exec (.length .rx) State.reset = .next t ∧ t.code ≠ .ok := ⟨⟨rfl, _, rfl⟩, _, rfl, by decide⟩

theorem witness_InvariantKept : pixels.Inv ∧ pixels.R50 ∧ ∃ t, step (issuing 0x00000002#32 pixels) = .next t :=
  ⟨pixels_inv, by decide, _, rfl⟩

/-- One state for each fault: ENC13, an unmapped read, a write beyond TXMEM. -/
theorem witness_FaultsHaveTheirCause :
    (issuing 0x00000008#32 { State.reset with txCount := 1#24 }).Inv ∧
    step (issuing 0x00000008#32 { State.reset with txCount := 1#24 }) = .fault .uninitTxmem ∧
    step (hostTo (.read 32 0x2C) pixels) = .fault .busError ∧
    step (hostTo (.txw 65536 [1#8]) pixels) = .fault .txmemRange :=
  ⟨⟨by decide, by decide, by decide, by decide, by decide⟩, rfl, rfl, rfl⟩

theorem witness_OnlyBadConfigurationsRefused :
    (∃ t, step State.reset = .next t) ∧
    step { State.reset with cfg := { Config.standard with bufCap := 65538 } } = .refused .bufCapTooSmall :=
  ⟨⟨_, rfl⟩, rfl⟩

theorem witness_ResetStep :
    TurnOf { sending .w3 [] with turns := [.reset 1] } (.reset 1) [] ∧ State.reset.ephase = .idle ∧
    ({ sending .w3 [] with turns := [.reset 1] } : State).outstanding = some (.write [0#8, 3#8]) := by decide

theorem witness_DstateTransitions :
    (∃ t, exec .recv pixels = .next t) ∧ (held.R50 ∧ held.dstate = .errHeld ∧ ∃ t, exec .recv held = .next t) ∧
    ((Instr.rdpix 0).space = .cmd ∧ ∃ t, exec (.rdpix 0) pixels = .next t) ∧
    ((∃ t, step State.reset = .next t) ∧ (∀ w ms ts, ¬ CommandTurn State.reset w ms ts) ∧
      ∀ k ts, State.reset.turns ≠ .reset k :: ts) ∧
    TurnOf { pixels with turns := [.reset 0] } (.reset 0) [] :=
  ⟨⟨_, rfl⟩, ⟨by decide, rfl, _, rfl⟩, ⟨rfl, _, rfl⟩,
    ⟨⟨_, rfl⟩, fun _ _ _ h => (by cases h.1.2), fun _ _ h => (by cases h)⟩, by decide⟩

theorem witness_ResultOnlyFromReads :
    ∃ t, step (issuing 0x00000004#32 pixels) = .next t ∧ t.result ≠ (issuing 0x00000004#32 pixels).result :=
  ⟨_, rfl, by decide⟩

theorem witness_InputErrorLatch :
    (∃ t, step { State.reset with turns := [.source], source := [.error] } = .next t ∧ t.inErr ≠ false) ∧
    TurnOf { State.reset with turns := [.source], source := [.error] } .source [] ∧
    (∃ t, exec .recv { held with inErr := true } = .next t ∧ t.code = .ioFailure) ∧
    TurnOf { pixels with turns := [.reset 0] } (.reset 0) [] :=
  ⟨⟨_, rfl, by decide⟩, by decide, ⟨_, rfl, rfl⟩, by decide⟩

theorem witness_CodeChangesOnlyAtCompletion :
    ∃ t, step (issuing 0x00000002#32 pixels) = .next t ∧ t.code ≠ (issuing 0x00000002#32 pixels).code :=
  ⟨_, rfl, by decide⟩

theorem witness_CodesOfEachCommand :
    (∃ t, exec (.isvalid .tx) State.reset = .next t) ∧ SinkGives (sending .flush [.ok]) .ok [] [] ∧
    (sending .flush [.ok]).ephase ≠ .idle ∧ ∃ t, step (sending .flush [.ok]) = .next t :=
  ⟨⟨_, rfl⟩, by decide, by decide, ⟨_, rfl⟩⟩

/-- DONE after a refused RECV, so with CODE already BAD_STATE, and a SEND. -/
theorem witness_BadStateIffNotAllowed :
    (Instr.done.space = .cmd ∧ State.reset.dstate ∉ allowedIn .done) ∧
    (({ pixels with code := .badState } : State).dstate ∈ allowedIn .done ∧
      (Instr.done = .send → ({ pixels with code := .badState } : State).code ≠ .badState) ∧
      ∃ t, exec .done { pixels with code := .badState } = .next t) ∧
    (onePixel.dstate ∈ allowedIn .send ∧ onePixel.code ≠ .badState ∧ ∃ t, exec .send onePixel = .next t) :=
  ⟨by decide, ⟨by decide, fun h => (by cases h), _, rfl⟩, by decide, by decide, _, rfl⟩

theorem witness_DeliveredFrameStays :
    pixels.R50 ∧ pixels.dstate = .delivering ∧ (∃ t, step (issuing 0x00000001#32 pixels) = .next t) ∧
    (∀ ms ts, ¬ CommandTurn (issuing 0x00000001#32 pixels) 0x00000002#32 ms ts) ∧
    ∀ k ts, (issuing 0x00000001#32 pixels).turns ≠ .reset k :: ts :=
  ⟨by decide, rfl, ⟨_, rfl⟩, fun _ _ h => (by cases h.2.2), fun _ _ h => (by cases h)⟩

/-- A push into an empty buffer, and one into a full buffer. -/
theorem witness_InputPush :
    TurnOf { State.reset with turns := [.source], source := [.push 1#8] } .source [] ∧
    State.reset.rxbuf.length < State.reset.cfg.bufCap ∧
    ¬ (buffered (List.replicate 65539 0#8)).rxbuf.length < (buffered (List.replicate 65539 0#8)).cfg.bufCap :=
  ⟨by decide, by decide, fun h => absurd h (by rw [buffered, List.length_replicate]; decide)⟩

/-- The last register's offset is admitted; the hole, the next offset, an odd one and a byte access are not. -/
theorem witness_BusErrors :
    HostDoes (hostTo (.read 32 0x40) State.reset) (.read 32 0x40) [] [] ∧ Admitted Config.standard 32 0x40 ∧
    HostDoes (hostTo (.write 8 0x30 1#32) State.reset) (.write 8 0x30 1#32) [] [] ∧ ¬ Admitted Config.standard 8 0x30 ∧
    ¬ Admitted Config.standard 32 0x2C ∧ ¬ Admitted Config.standard 32 0x44 ∧ ¬ Admitted Config.standard 32 0x11 := by
  decide

theorem witness_CsrReadValues :
    (0x1C, pixels.rxHdr) ∈ csrValues pixels ∧ HostDoes (hostTo (.read 32 0x1C) pixels) (.read 32 (0 + 0x1C)) [] [] := by
  decide

theorem witness_CsrFieldAccess :
    (0x28 ∈ roOffsets ∧ HostDoes (hostTo (.write 32 0x28 1#32) pixels) (.write 32 (0 + 0x28) 1#32) [] []) ∧
    ((0x34, 0x00000001#32) ∈ rwFields ∧
      HostDoes (hostTo (.write 32 0x34 0xFFFFFFFE#32) pixels) (.write 32 (0 + 0x34) 0xFFFFFFFE#32) [] []) ∧
    HostDoes (hostTo (.read 32 0x0C) pixels) (.read 32 (0 + 0x0C)) [] [] := by decide

theorem witness_HostWritesTxmem :
    HostDoes (hostTo (.txw 65535 [1#8]) State.reset) (.txw 65535 [1#8]) [] [] ∧
    65535 + [1#8].length ≤ State.reset.cfg.txmemSize ∧ State.reset.txmemOk := by decide

end Sys2Proof.Tests
end

namespace Sys2Proof

/-- Only the nine commands have a CMD word (R97). -/
theorem decodeCmd_space {w : Word} {i : Instr} (h : decodeCmd w = .ok i) : i.space = .cmd := by
  simp only [decodeCmd, mustBeZero] at h
  split_ifs at h <;> cases h <;> rfl

/-- A word whose bits above OPC are all 0 is its OPC. -/
theorem eq_setWidth_cmdOpc {w : Word} (h : w &&& 0xFFFFFF00#32 = 0#32) : w = (cmdOpc w).setWidth 32 := by
  have hhi : w.extractLsb' 8 24 = 0#24 := by
    have hm := congrArg (BitVec.extractLsb' 8 24) h
    rwa [BitVec.extractLsb'_and, show (0xFFFFFF00#32).extractLsb' 8 24 = BitVec.allOnes 24 by decide,
      BitVec.and_allOnes] at hm
  have hn := congrArg BitVec.toNat hhi
  apply BitVec.eq_of_toNat_eq
  simp only [cmdOpc, toNat_field, BitVec.toNat_setWidth, BitVec.toNat_ofNat] at hn ⊢
  omega

/-- RECV has one word (R98). -/
theorem decodeCmd_eq_recv {w : Word} (h : decodeCmd w = .ok .recv) : w = 0x00000001#32 := by
  simp only [decodeCmd, mustBeZero] at h
  split_ifs at h with hopc hz <;> cases h
  rw [eq_setWidth_cmdOpc hz, hopc]
  rfl

namespace Machine

open Sys2Proof.Claims

/-! ## What each command does, where it ends in a next state -/

/-- The ways RECV ends in a next state, in the order of R180. -/
inductive RecvCase (s : State) : State → Prop
  /-- A message is delivered. -/
  | refused (hd : s.dstate = .delivering) : RecvCase s (s.finish .badState)
  /-- The latched input error is reported. -/
  | inputError (hd : s.dstate ≠ .delivering) (hi : s.inErr = true) :
      RecvCase s (s.clearRx.clearInErr.finish .ioFailure)
  /-- Fewer than 4 bytes are buffered. -/
  | noHeader (hd : s.dstate ≠ .delivering) (hi : s.inErr = false) (hf : s.rxFront = none) :
      RecvCase s (s.clearRx.finish .incompleteHeader)
  /-- The header is there and not all of the frame. -/
  | noPayload (hd : s.dstate ≠ .delivering) (hi : s.inErr = false) (h : Word) (hf : s.rxFront = some h)
      (hl : s.rxCount < frameLen h) : RecvCase s ((s.clearRx.setHdr h).finish .incompletePayload)
  /-- A SetPixelColors message is presented (R182). -/
  | pixels (hd : s.dstate ≠ .delivering) (hi : s.inErr = false) (h : Word) (hf : s.rxFront = some h)
      (hl : frameLen h ≤ s.rxCount) (ht : hdrTag h = tagSpc) :
      RecvCase s ((s.clearRx.setHdr h).presentPixels (BitVec.ofNat 16 (hdrPayload h / 3)))
  /-- A SystemExclusive frame is too short (R183). -/
  | malformed (hd : s.dstate ≠ .delivering) (hi : s.inErr = false) (h : Word) (hf : s.rxFront = some h)
      (hl : frameLen h ≤ s.rxCount) (ht : hdrTag h = tagSysex) (hp : hdrPayload h < 2) :
      RecvCase s ((s.clearRx.setHdr h).holdError .malformed)
  /-- A SystemExclusive message is presented (R183). -/
  | sysex (hd : s.dstate ≠ .delivering) (hi : s.inErr = false) (h : Word) (hf : s.rxFront = some h)
      (hl : frameLen h ≤ s.rxCount) (ht : hdrTag h = tagSysex) (hp : 2 ≤ hdrPayload h) (a b : Byte)
      (ha : s.rxByte 4 = some a) (hb : s.rxByte 5 = some b) :
      RecvCase s ((s.clearRx.setHdr h).presentSysex (a ++ b) (BitVec.ofNat 16 (hdrPayload h - 2)))
  /-- The tag is neither of the two (R184). -/
  | unrecognized (hd : s.dstate ≠ .delivering) (hi : s.inErr = false) (h : Word) (hf : s.rxFront = some h)
      (hl : frameLen h ≤ s.rxCount) (h0 : hdrTag h ≠ tagSpc) (h1 : hdrTag h ≠ tagSysex) :
      RecvCase s ((s.clearRx.setHdr h).holdError .unrecognized)

/-- A header parsed ends in a next state with the payload awaited, or with the frame run to its end. -/
theorem withHeader_next {h : Word} {frame : State → Result} {s t : State} (e : withHeader h frame s = .next t) :
    (s.rxCount < frameLen h ∧ t = (s.setHdr h).finish .incompletePayload) ∨
    (frameLen h ≤ s.rxCount ∧ frame (s.setHdr h) = .next t) := by
  rcases withHeader_cases h frame s with ⟨hl, e'⟩ | ⟨hl, e'⟩
  · rw [e'] at e
    cases e
    exact .inl ⟨hl, rfl⟩
  · exact .inr ⟨hl, e' ▸ e⟩

/-- A RECV that ends in a next state ends in one of the ways of `RecvCase`. -/
theorem execRecv_next {s t : State} (e : execRecv s = .next t) : RecvCase s t := by
  unfold execRecv at e
  rcases receive_cases parseFront s with ⟨hd, e'⟩ | ⟨hd, hi, e'⟩ | ⟨hd, hi, e'⟩ <;> rw [e'] at e
  · cases e
    exact .refused hd
  · cases e
    exact .inputError hd hi
  rcases parseFront_cases s.clearRx with ⟨hf, e'⟩ | ⟨h, hf, ⟨ht, e'⟩ | ⟨ht, e'⟩ | ⟨h0, h1, e'⟩⟩ <;> rw [e'] at e
  · cases e
    exact .noHeader hd hi hf
  all_goals rcases withHeader_next e with ⟨hl, rfl⟩ | ⟨hl, e⟩
  any_goals exact .noPayload hd hi h hf hl
  · cases e
    exact .pixels hd hi h hf hl ht
  · rcases parseSysex_cases (hdrPayload h) (s.clearRx.setHdr h) with
      ⟨hp, e'⟩ | ⟨hp, a, b, ha, hb, e'⟩ | ⟨_, _, e'⟩ <;> rw [e'] at e <;> cases e
    · exact .malformed hd hi h hf hl ht hp
    · exact .sysex hd hi h hf hl ht hp a b ha hb
  · cases e
    exact .unrecognized hd hi h hf hl h0 h1

/-- A DONE or SKIP that ends in a next state has consumed the held frame, or was refused. -/
theorem release_next {held : DState} {s t : State} (e : release held s = .next t) :
    (s.dstate = held ∧ frameLen s.rxHdr ≤ s.rxCount ∧
      t = ({ s with rxbuf := s.rxbuf.drop (frameLen s.rxHdr) } : State).clearRx.finish .ok) ∨
    (s.dstate ≠ held ∧ t = s.finish .badState) := by
  rcases release_cases held s with ⟨hd, hl, e'⟩ | ⟨hd, e'⟩ | ⟨_, _, e'⟩ <;> rw [e'] at e <;> cases e
  · exact .inl ⟨hd, hl, rfl⟩
  · exact .inr ⟨hd, rfl⟩

/-- RDPIX and RDDATA change CODE and RESULT alone. -/
theorem readItem_next {i count : Nat} {item : Option Word} {s t : State} (e : readItem i count item s = .next t) :
    ∃ c v, t = { s with code := c, result := v } := by
  rcases readItem_cases i count item s with ⟨_, e'⟩ | ⟨_, _, e'⟩ | ⟨_, _, _, _, e'⟩ | ⟨_, _, _, e'⟩ <;>
    rw [e'] at e <;> cases e <;> exact ⟨_, _, rfl⟩

/-- A query changes CODE and RESULT alone. -/
theorem query_next {α : Type} {selected : Option α} {f : α → Word} {s t : State}
    (e : query selected f s = .next t) : ∃ c v, t = { s with code := c, result := v } := by
  rcases query_cases selected f s with ⟨_, _, e'⟩ | ⟨_, e'⟩ <;> rw [e'] at e <;> cases e <;> exact ⟨_, _, rfl⟩

/-- SEND's own step changes CODE and EPHASE alone. -/
theorem execSend_next {s t : State} (e : execSend s = .next t) : ∃ c p, t = { s with code := c, ephase := p } := by
  rcases execSend_cases s with ⟨_, e'⟩ | ⟨_, _, e'⟩ | ⟨_, _, _, _, e'⟩ | ⟨_, _, _, e'⟩ <;>
    rw [e'] at e <;> cases e <;> exact ⟨_, _, rfl⟩

/-- A command other than RECV, DONE and SKIP changes CODE, RESULT and EPHASE alone. -/
theorem exec_next_of_not_decoder {i : Instr} {s t : State} (hi : i.space = .cmd) (hr : i ≠ .recv) (hd : i ≠ .done)
    (hk : i ≠ .skip) (e : exec i s = .next t) : ∃ c v p, t = { s with code := c, result := v, ephase := p } := by
  cases i with
  | recv => exact (hr rfl).elim
  | done => exact (hd rfl).elim
  | skip => exact (hk rfl).elim
  | frameSetPixelColors _ _ | frameSystemExclusive _ _ => cases hi
  | send =>
    obtain ⟨c, p, rfl⟩ := execSend_next e
    exact ⟨c, _, p, rfl⟩
  | rdpix _ | rddata _ =>
    obtain ⟨c, v, rfl⟩ := readItem_next e
    exact ⟨c, v, _, rfl⟩
  | length _ | isvalid _ | isbcast _ =>
    obtain ⟨c, v, rfl⟩ := query_next e
    exact ⟨c, v, _, rfl⟩

/-- A command that ends in a next state: RECV, DONE or SKIP, or one that leaves the decoder as it is. -/
theorem exec_next_cases {i : Instr} {s t : State} (hi : i.space = .cmd) (e : exec i s = .next t) :
    (i = .recv ∧ RecvCase s t) ∨
    (∃ held, release held s = .next t ∧ (i = .done ∧ held = .delivering ∨ i = .skip ∧ held = .errHeld)) ∨
    ∃ c v p, t = { s with code := c, result := v, ephase := p } := by
  by_cases hr : i = .recv
  · subst hr
    exact .inl ⟨rfl, execRecv_next e⟩
  by_cases hd : i = .done
  · subst hd
    exact .inr (.inl ⟨_, e, .inl ⟨rfl, rfl⟩⟩)
  by_cases hk : i = .skip
  · subst hk
    exact .inr (.inl ⟨_, e, .inr ⟨rfl, rfl⟩⟩)
  exact .inr (.inr (exec_next_of_not_decoder hi hr hd hk e))

/-! ## What the other steps do -/

/-- A CSR write stores TX registers alone. -/
theorem State.csrStore_frame (s : State) (v : Word) (r : Csr) :
    s.csrStore v r = { s with
      txChan := (s.csrStore v r).txChan, txKind := (s.csrStore v r).txKind, txCount := (s.csrStore v r).txCount
      txSysid := (s.csrStore v r).txSysid, txBase := (s.csrStore v r).txBase } := by
  cases r <;> rfl

/-- A sink answer changes CODE, EPHASE and the sink log alone. -/
theorem sinkAnswers_frame (x : SinkTxn) (a : SinkAnswer) (s : State) :
    ∃ c p log, sinkAnswers x a s = { s with code := c, ephase := p, sinkLog := log } := by
  rcases sinkAnswers_cases x a s with ⟨_, _, e⟩ | ⟨_, _, e⟩ | ⟨_, _, e⟩ <;> exact ⟨_, _, _, e⟩

@[simp] theorem resetTurn_dstate (k : Nat) (s : State) : (resetTurn k s).dstate = .idle := by
  obtain ⟨_, _, e⟩ := resetTurn_eq k s
  rw [e]
  rfl

@[simp] theorem resetTurn_inErr (k : Nat) (s : State) : (resetTurn k s).inErr = false := by
  obtain ⟨_, _, e⟩ := resetTurn_eq k s
  rw [e]
  rfl

@[simp] theorem State.csrStore_dstate (s : State) (v : Word) (r : Csr) : (s.csrStore v r).dstate = s.dstate := by
  rw [State.csrStore_frame]

@[simp] theorem State.csrStore_inErr (s : State) (v : Word) (r : Csr) : (s.csrStore v r).inErr = s.inErr := by
  rw [State.csrStore_frame]

@[simp] theorem sinkAnswers_dstate (x : SinkTxn) (a : SinkAnswer) (s : State) :
    (sinkAnswers x a s).dstate = s.dstate := by
  obtain ⟨_, _, _, e⟩ := sinkAnswers_frame x a s
  rw [e]

@[simp] theorem sinkAnswers_inErr (x : SinkTxn) (a : SinkAnswer) (s : State) :
    (sinkAnswers x a s).inErr = s.inErr := by
  obtain ⟨_, _, _, e⟩ := sinkAnswers_frame x a s
  rw [e]

/-- A step of the source that has an input error to signal sets the latch. -/
theorem step_inputError {s : State} {ms : List SourceMove} {ts : List Turn} (hc : configRefusal s.cfg = none)
    (ht : s.turns = .source :: ts) (hm : s.source = .error :: ms) :
    step s = .next { s with source := ms, turns := ts, inErr := true } := by
  simp [step, hc, nextTurn, ht, takeTurn, sourceTurn, hm]

/-- A reset turn is never held. -/
theorem step_reset {s : State} {k : Nat} {ts : List Turn} (hc : configRefusal s.cfg = none)
    (ht : s.turns = .reset k :: ts) : step s = .next (resetTurn k { s with turns := ts }) := by
  simp [step, hc, nextTurn, ht, takeTurn]

/-! ## R50, by DSTATE -/

theorem State.r50_of_idle {s : State} (hb : s.bufBounded) (hd : s.dstate = .idle) (hp : s.rxPixcnt = 0#16)
    (hi : s.rxSysid = 0#16) (hl : s.rxDlen = 0#16) : s.R50 := by
  refine ⟨hb, fun h => (h hd).elim, fun h => ?_, fun h => ?_, fun _ => ⟨hp, hi, hl⟩⟩ <;> rw [hd] at h <;> cases h

theorem State.r50_of_delivering {s : State} (hb : s.bufBounded) (hd : s.dstate = .delivering)
    (hf : s.rxFront = some s.rxHdr) (hl : frameLen s.rxHdr ≤ s.rxCount)
    (hv : hdrTag s.rxHdr = tagSpc ∨ (hdrTag s.rxHdr = tagSysex ∧ 2 ≤ hdrPayload s.rxHdr)) : s.R50 := by
  refine ⟨hb, fun _ => ⟨hf, hl⟩, fun _ => hv, fun h => ?_, fun h => ?_⟩ <;> rw [hd] at h <;> cases h

theorem State.r50_of_errHeld {s : State} (hb : s.bufBounded) (hd : s.dstate = .errHeld)
    (hf : s.rxFront = some s.rxHdr) (hl : frameLen s.rxHdr ≤ s.rxCount)
    (hv : (hdrTag s.rxHdr ≠ tagSpc ∧ hdrTag s.rxHdr ≠ tagSysex) ∨
      (hdrTag s.rxHdr = tagSysex ∧ hdrPayload s.rxHdr < 2)) : s.R50 := by
  refine ⟨hb, fun _ => ⟨hf, hl⟩, fun h => ?_, fun _ => hv, fun h => ?_⟩ <;> rw [hd] at h <;> cases h

theorem RecvCase.r50 {s t : State} (h : RecvCase s t) (hs : s.R50) : t.R50 := by
  have hb : s.bufBounded := hs.1
  cases h with
  | refused => exact hs
  | inputError => exact State.r50_of_idle hb rfl rfl rfl rfl
  | noHeader => exact State.r50_of_idle hb rfl rfl rfl rfl
  | noPayload => exact State.r50_of_idle hb rfl rfl rfl rfl
  | pixels _ _ h hf hl ht => exact State.r50_of_delivering hb rfl hf hl (.inl ht)
  | malformed _ _ h hf hl ht hp => exact State.r50_of_errHeld hb rfl hf hl (.inr ⟨ht, hp⟩)
  | sysex _ _ h hf hl ht hp => exact State.r50_of_delivering hb rfl hf hl (.inr ⟨ht, hp⟩)
  | unrecognized _ _ h hf hl h0 h1 => exact State.r50_of_errHeld hb rfl hf hl (.inl ⟨h0, h1⟩)

theorem release_r50 {held : DState} {s t : State} (e : release held s = .next t) (hs : s.R50) : t.R50 := by
  rcases release_next e with ⟨_, _, rfl⟩ | ⟨_, rfl⟩
  · have hb : (s.rxbuf.drop (frameLen s.rxHdr)).length ≤ s.cfg.bufCap :=
      (List.drop_sublist _ _).length_le.trans hs.1
    exact State.r50_of_idle hb rfl rfl rfl rfl
  · exact hs

theorem exec_r50 {i : Instr} {s t : State} (hi : i.space = .cmd) (e : exec i s = .next t) (hs : s.R50) : t.R50 := by
  rcases exec_next_cases hi e with ⟨_, h⟩ | ⟨_, h, _⟩ | ⟨_, _, _, rfl⟩
  · exact h.r50 hs
  · exact release_r50 h hs
  · exact hs

theorem State.append_r50 {s : State} (b : Byte) (hl : s.rxCount < s.cfg.bufCap) (hs : s.R50) : (s.append b).R50 := by
  obtain ⟨_, hf, hv, he, hc⟩ := hs
  have hlen : (s.append b).rxCount = s.rxCount + 1 := List.length_append
  refine ⟨?_, fun hd => ?_, hv, he, hc⟩
  · show (s.append b).rxCount ≤ s.cfg.bufCap
    omega
  · obtain ⟨hfront, hfl⟩ := hf hd
    exact ⟨headerOf_append hfront [b], by rw [hlen]; exact Nat.le_succ_of_le hfl⟩

theorem resetTurn_r50 (k : Nat) (s : State) : (resetTurn k s).R50 := by
  obtain ⟨_, _, e⟩ := resetTurn_eq k s
  rw [e]
  exact State.r50_of_idle (Nat.zero_le _) rfl rfl rfl rfl

theorem StepCase.r50 {s t : State} (h : StepCase s t) (hs : s.R50) : t.R50 := by
  cases h with
  | command w i ms ts t _ _ _ hd hx => exact exec_r50 (decodeCmd_space hd) hx hs
  | push b ms ts _ _ hl => exact State.append_r50 b hl hs
  | reset k ts => exact resetTurn_r50 k _
  | store _ _ v r => rw [State.csrStore_frame]; exact hs
  | sink x a as ts =>
    obtain ⟨_, _, _, e⟩ := sinkAnswers_frame x a { s with turns := ts, sink := as }
    rw [e]
    exact hs
  | quiet | passed | illegal | load | txw | inputError => exact hs

/-! ## DSTATE and the input-error latch, command by command -/

/-- RECV in DELIVERING is refused and leaves DSTATE (R23). -/
theorem RecvCase.of_delivering {s t : State} (h : RecvCase s t) (hd : s.dstate = .delivering) :
    t.code = .badState ∧ t.dstate = .delivering := by
  cases h with
  | refused => exact ⟨rfl, hd⟩
  | inputError hn | noHeader hn | noPayload hn | pixels hn | malformed hn | sysex hn | unrecognized hn =>
    exact (hn hd).elim

/-- Elsewhere the result code of RECV tells the DSTATE it leads to (R23). -/
theorem RecvCase.of_not_delivering {s t : State} (h : RecvCase s t) (hn : s.dstate ≠ .delivering) :
    (t.code = .delivered ∧ t.dstate = .delivering) ∨
    ((t.code = .malformed ∨ t.code = .unrecognized) ∧ t.dstate = .errHeld) ∨
    ((t.code = .incompleteHeader ∨ t.code = .incompletePayload ∨ t.code = .ioFailure) ∧ t.dstate = .idle) := by
  cases h with
  | refused hd => exact (hn hd).elim
  | pixels | sysex => exact .inl ⟨rfl, rfl⟩
  | malformed => exact .inr (.inl ⟨.inl rfl, rfl⟩)
  | unrecognized => exact .inr (.inl ⟨.inr rfl, rfl⟩)
  | noHeader => exact .inr (.inr ⟨.inl rfl, rfl⟩)
  | noPayload => exact .inr (.inr ⟨.inr (.inl rfl), rfl⟩)
  | inputError => exact .inr (.inr ⟨.inr (.inr rfl), rfl⟩)

/-- RECV in ERRHELD finds the failed frame still whole at the front (R50), and reports its error again unless an input
error is latched. -/
theorem RecvCase.of_errHeld {s t : State} (h : RecvCase s t) (hs : s.R50) (hd : s.dstate = .errHeld) :
    (t.code = .ioFailure ∧ t.dstate = .idle) ∨
    (t.dstate = .errHeld ∧ t.code = if hdrTag s.rxHdr = 0xFF#8 then .malformed else .unrecognized) := by
  obtain ⟨_, hheld, _, hinvalid, _⟩ := hs
  obtain ⟨hfront, hlen⟩ := hheld (by rw [hd]; decide)
  have hbad := hinvalid hd
  have hdr_eq : ∀ {h : Word}, s.rxFront = some h → s.rxHdr = h := fun e => Option.some.inj (hfront.symm.trans e)
  cases h with
  | refused hd' => rw [hd] at hd'; cases hd'
  | inputError => exact .inl ⟨rfl, rfl⟩
  | noHeader _ _ hf => rw [hfront] at hf; cases hf
  | noPayload _ _ h hf hl =>
    obtain rfl := hdr_eq hf
    exact (Nat.not_lt.2 hlen hl).elim
  | pixels _ _ h hf _ ht =>
    obtain rfl := hdr_eq hf
    rcases hbad with ⟨h0, _⟩ | ⟨h1, _⟩
    · exact (h0 ht).elim
    · rw [ht] at h1; cases h1
  | malformed _ _ h hf _ ht =>
    obtain rfl := hdr_eq hf
    exact .inr ⟨rfl, (if_pos ht).symm⟩
  | sysex _ _ h hf _ ht hp =>
    obtain rfl := hdr_eq hf
    rcases hbad with ⟨_, h1⟩ | ⟨_, hp'⟩
    · exact (h1 ht).elim
    · omega
  | unrecognized _ _ h hf _ _ h1 =>
    obtain rfl := hdr_eq hf
    exact .inr ⟨rfl, (if_neg h1).symm⟩

/-- DONE and SKIP go to IDLE from the DSTATE they release, and leave every other (R23). -/
theorem release_dstate {held : DState} {s t : State} (e : release held s = .next t) :
    t.dstate = if s.dstate = held then .idle else s.dstate := by
  rcases release_next e with ⟨hd, _, rfl⟩ | ⟨hd, rfl⟩
  · exact (if_pos hd).symm
  · exact (if_neg hd).symm

/-- RECV leaves the latch, or reports IO_FAILURE and clears it (R35). -/
theorem RecvCase.inErr {s t : State} (h : RecvCase s t) :
    (t.code ≠ .ioFailure ∧ t.inErr = s.inErr) ∨ (t.code = .ioFailure ∧ t.inErr = false) := by
  cases h with
  | inputError => exact .inr ⟨rfl, rfl⟩
  | refused | noHeader | noPayload | pixels | malformed | sysex | unrecognized =>
    exact .inl ⟨by simp, rfl⟩

/-- No command but a RECV that reports IO_FAILURE changes the latch (R35). -/
theorem exec_inErr {i : Instr} {s t : State} (hi : i.space = .cmd) (e : exec i s = .next t)
    (hne : t.inErr ≠ s.inErr) : i = .recv ∧ t.code = .ioFailure ∧ t.inErr = false := by
  rcases exec_next_cases hi e with ⟨rfl, h⟩ | ⟨_, h, _⟩ | ⟨_, _, _, rfl⟩
  · rcases h.inErr with ⟨_, he⟩ | h
    · exact (hne he).elim
    · exact ⟨rfl, h⟩
  · rcases release_next h with ⟨_, _, rfl⟩ | ⟨_, rfl⟩ <;> exact (hne rfl).elim
  · exact (hne rfl).elim

/-- A step that is neither a CMD write nor reset leaves DSTATE (R23). -/
theorem StepCase.dstate {s t : State} (h : StepCase s t)
    (hcmd : ∀ w ms ts, s.turns = .host :: ts → s.ephase = .idle →
      s.host ≠ .write 32 (s.cfg.csrBase + 0x0C) w :: ms)
    (hreset : ∀ k ts, s.turns ≠ .reset k :: ts) : t.dstate = s.dstate := by
  cases h with
  | command w _ ms ts _ h he hm => exact (hcmd w ms ts h he hm).elim
  | illegal w _ ms ts h he hm => exact (hcmd w ms ts h he hm).elim
  | reset k ts h => exact (hreset k ts h).elim
  | store => exact State.csrStore_dstate ..
  | sink => exact sinkAnswers_dstate ..
  | quiet | passed | load | txw | push | inputError => rfl

/-- A step that changes the latch is an input error, a RECV that reports IO_FAILURE, or reset (R35). -/
theorem StepCase.inErr {s t : State} (h : StepCase s t) (hne : t.inErr ≠ s.inErr) :
    (t.inErr = true ∧ ∃ ts ms, s.turns = .source :: ts ∧ s.source = .error :: ms) ∨
    (t.inErr = false ∧ t.code = .ioFailure ∧ ∃ ms ts, s.turns = .host :: ts ∧ s.ephase = .idle ∧
      s.host = .write 32 (s.cfg.csrBase + 0x0C) 0x00000001#32 :: ms) ∨
    (t.inErr = false ∧ ∃ k ts, s.turns = .reset k :: ts) := by
  cases h with
  | inputError ms ts h hm => exact .inl ⟨rfl, ts, ms, h, hm⟩
  | command w i ms ts _ h he hm hd hx =>
    obtain ⟨rfl, hcode, hin⟩ := exec_inErr (decodeCmd_space hd) hx hne
    obtain rfl := decodeCmd_eq_recv hd
    exact .inr (.inl ⟨hin, hcode, ms, ts, h, he, hm⟩)
  | reset k ts h => exact .inr (.inr ⟨resetTurn_inErr .., k, ts, h⟩)
  | store => exact (hne (State.csrStore_inErr ..)).elim
  | sink => exact (hne (sinkAnswers_inErr ..)).elim
  | quiet | passed | illegal | load | txw | push => exact (hne rfl).elim

/-! ## STATUS (R31) -/

/-- STATUS as a number: its fields, each at its place. -/
theorem State.toNat_statusWord (s : State) :
    s.statusWord.toNat =
      s.inErr.toNat * 2048 + s.code.resync.toNat * 1024 + s.dstate.bits.toNat * 256 + s.code.bits.toNat := by
  simp only [State.statusWord, toNat_append_eq, BitVec.toNat_ofBool, BitVec.toNat_ofNat]
  omega

theorem State.statusWord_reserved (s : State) : s.statusWord.extractLsb' 12 20 = 0#20 := by
  apply BitVec.eq_of_toNat_eq
  have hi := s.inErr.toNat_le
  have hr := s.code.resync.toNat_le
  simp only [toNat_field, State.toNat_statusWord, BitVec.toNat_ofNat]
  omega

theorem State.statusWord_code (s : State) : s.statusWord.extractLsb' 0 8 = s.code.bits := by
  apply BitVec.eq_of_toNat_eq
  simp only [toNat_field, State.toNat_statusWord]
  omega

theorem State.statusWord_dstate (s : State) : s.statusWord.extractLsb' 8 2 = s.dstate.bits := by
  apply BitVec.eq_of_toNat_eq
  simp only [toNat_field, State.toNat_statusWord]
  omega

theorem State.statusWord_resync (s : State) : s.statusWord.getLsbD 10 = s.code.resync := by
  have hbit : s.statusWord.toNat / 2 ^ 10 % 2 = s.code.resync.toNat := by
    have := s.code.resync.toNat_le
    rw [State.toNat_statusWord]
    omega
  rw [← BitVec.testBit_toNat, Nat.testBit_eq_decide_div_mod_eq, hbit]
  cases s.code.resync <;> rfl

theorem State.statusWord_inErr (s : State) : s.statusWord.getLsbD 11 = s.inErr := by
  have hbit : s.statusWord.toNat / 2 ^ 11 % 2 = s.inErr.toNat := by
    have hi := s.inErr.toNat_le
    have hr := s.code.resync.toNat_le
    rw [State.toNat_statusWord]
    omega
  rw [← BitVec.testBit_toNat, Nat.testBit_eq_decide_div_mod_eq, hbit]
  cases s.inErr <;> rfl

/-- RESYNC by the number of the result code (R34). -/
theorem Code.resync_iff_bits (c : Code) : c.resync = true ↔ c.bits = 0x11#8 ∨ c.bits = 0x12#8 := by
  cases c <;> decide

theorem DState.bits_inj {d e : DState} : d.bits = e.bits ↔ d = e := by
  cases d <;> cases e <;> decide

/-! ## The CSR map (R25) -/

/-- The offset of a register from CSR_BASE. -/
def Csr.offset : Csr → Nat
  | .id => 0x00
  | .defport => 0x04
  | .bufcap => 0x08
  | .cmd => 0x0C
  | .status => 0x10
  | .result => 0x14
  | .rxCount => 0x18
  | .rxHdr => 0x1C
  | .rxPixcnt => 0x20
  | .rxSysid => 0x24
  | .rxDlen => 0x28
  | .txChan => 0x30
  | .txKind => 0x34
  | .txCount => 0x38
  | .txSysid => 0x3C
  | .txBase => 0x40

/-- `csrAt` finds no register but at its offset. -/
theorem offset_of_csrAt : ∀ o < 0x41, ∀ r ∈ csrAt o, r.offset = o := by decide

/-- `csrAt` finds each register at its offset, and nowhere else. -/
theorem csrAt_eq_some {o : Nat} {r : Csr} : csrAt o = some r ↔ o = r.offset := by
  constructor
  · intro h
    have ho : o ≤ 0x40 := not_lt.1 fun ho => by rw [csrAt_above ho] at h; cases h
    exact (offset_of_csrAt o (by omega) r h).symm
  · rintro rfl
    cases r <;> rfl

/-- The read-write registers. -/
def Csr.isRW : Csr → Bool
  | .txChan | .txKind | .txCount | .txSysid | .txBase => true
  | _ => false

/-- A write to a register that is not read-write stores nothing. -/
theorem State.csrStore_of_not_isRW (s : State) (v : Word) {r : Csr} (h : r.isRW = false) : s.csrStore v r = s := by
  cases r with
  | txChan | txKind | txCount | txSysid | txBase => cases h
  | _ => rfl

/-- A write leaves what every other register reads. -/
theorem State.csrRead_csrStore_of_ne (s : State) (v : Word) {r q : Csr} (h : q ≠ r) :
    (s.csrStore v r).csrRead q = s.csrRead q := by
  cases r with
  | txChan | txKind | txCount | txSysid | txBase => cases q <;> trivial
  | _ => rfl

/-- The mask of a read-write register's field (R42 to R46). -/
def Csr.mask : Csr → Word
  | .txChan => 0x000000FF#32
  | .txKind => 0x00000001#32
  | .txCount => 0x00FFFFFF#32
  | .txSysid => 0x0000FFFF#32
  | .txBase => 0xFFFFFFFF#32
  | _ => 0#32

/-- A field of the `k` low bits holds a word under the mask of those bits. -/
theorem setWidth_setWidth_eq_and (v : Word) {k : Nat} (hk : k ≤ 32) :
    (v.setWidth k).setWidth 32 = v &&& BitVec.ofNat 32 (2 ^ k - 1) := by
  have hpow : 2 ^ k ≤ 2 ^ 32 := Nat.pow_le_pow_right (by decide) hk
  apply BitVec.eq_of_toNat_eq
  rw [BitVec.toNat_and, BitVec.toNat_ofNat, Nat.mod_eq_of_lt (by omega), Nat.and_two_pow_sub_one_eq_mod,
    BitVec.toNat_setWidth_of_le hk, BitVec.toNat_setWidth]

/-- Above a 16-bit field a register reads 0. -/
theorem reserved_setWidth (v : Half) : (v.setWidth 32).extractLsb' 16 16 = 0#16 := by
  apply BitVec.eq_of_toNat_eq
  simp only [toNat_field, BitVec.toNat_setWidth, BitVec.toNat_ofNat]
  omega

/-- A read-write register reads back what was written under its mask. -/
theorem State.csrRead_csrStore_self (s : State) (v : Word) {r : Csr} (h : r.isRW = true) :
    (s.csrStore v r).csrRead r = v &&& r.mask := by
  cases r with
  | txChan | txKind | txCount | txSysid => exact setWidth_setWidth_eq_and v (by decide)
  | txBase => exact BitVec.and_allOnes.symm
  | _ => cases h

/-- The registers in the order of their offsets. -/
def Csr.all : List Csr :=
  [.id, .defport, .bufcap, .cmd, .status, .result, .rxCount, .rxHdr, .rxPixcnt, .rxSysid, .rxDlen, .txChan, .txKind,
   .txCount, .txSysid, .txBase]

theorem Csr.mem_all (r : Csr) : r ∈ Csr.all := by cases r <;> decide

/-- The statements' table of readings is what `csrRead` gives, register by register. -/
theorem csrValues_eq (s : State) : csrValues s = Csr.all.map fun r => (r.offset, s.csrRead r) := rfl

theorem rwFields_eq : rwFields = (Csr.all.filter Csr.isRW).map fun r => (r.offset, r.mask) := rfl

theorem roOffsets_eq : roOffsets = (Csr.all.filter fun r => !r.isRW && r != .cmd).map Csr.offset := rfl

theorem mem_csrValues {s : State} {o : Nat} {x : Word} :
    (o, x) ∈ csrValues s ↔ ∃ r : Csr, r.offset = o ∧ s.csrRead r = x := by
  simp [csrValues_eq, Csr.mem_all]

theorem mem_rwFields {o : Nat} {mask : Word} :
    (o, mask) ∈ rwFields ↔ ∃ r : Csr, r.isRW = true ∧ r.offset = o ∧ r.mask = mask := by
  simp [rwFields_eq, Csr.mem_all]

theorem mem_roOffsets {o : Nat} :
    o ∈ roOffsets ↔ ∃ r : Csr, (r.isRW = false ∧ r ≠ .cmd) ∧ r.offset = o := by
  simp [roOffsets_eq, Csr.mem_all]

/-- A host write to a register other than CMD stores the word there. -/
theorem step_store {s : State} {r : Csr} {v : Word} {ms : List HostMove} {ts : List Turn} (hr : r ≠ .cmd)
    (hc : configRefusal s.cfg = none) (ht : s.turns = .host :: ts) (he : s.ephase = .idle)
    (hm : s.host = .write 32 (s.cfg.csrBase + r.offset) v :: ms) :
    step s = .next (({ s with turns := ts, host := ms } : State).csrStore v r) := by
  rw [step_host hc ht he hm]
  simp only [hostMove, hostWrite, csrAccess_offset, csrAt_eq_some.2 rfl]

/-- A host read of a register gives the register's value. -/
theorem step_load {s : State} {r : Csr} {ms : List HostMove} {ts : List Turn}
    (hc : configRefusal s.cfg = none) (ht : s.turns = .host :: ts) (he : s.ephase = .idle)
    (hm : s.host = .read 32 (s.cfg.csrBase + r.offset) :: ms) :
    step s = .next { s with turns := ts, host := ms, readData := some (s.csrRead r) } := by
  rw [step_host hc ht he hm]
  simp only [hostMove, hostRead, csrAccess_offset, csrAt_eq_some.2 rfl]
  rfl

end Machine

namespace Proofs

open Sys2Proof.Machine Sys2Proof.Claims

/-- Settles O40: each way a step ends in a next state keeps R50. -/
theorem invariantsOfR50Kept : Obligations.InvariantsOfR50Kept :=
  fun _ _ hs h => (step_next h).2.r50 hs

/-- Settles O47: DSTATE after RECV by its cases, after DONE and SKIP by the frame they release, after any other step by
what that step changes. -/
theorem dstateTransitions : Obligations.DstateTransitions := by
  refine ⟨?_, fun _ _ => release_dstate, fun _ _ => release_dstate, ?_, ?_, ?_⟩
  · intro s t e
    have h := execRecv_next e
    exact ⟨h.of_delivering, h.of_not_delivering, h.of_errHeld⟩
  · intro i s t hi hr hd hk e
    obtain ⟨_, _, _, rfl⟩ := exec_next_of_not_decoder hi hr hd hk e
    rfl
  · intro s t e hcmd hreset
    obtain ⟨hc, h⟩ := step_next e
    exact h.dstate (fun w ms ts ht he hm => hcmd w ms ts ⟨⟨hc, ht⟩, he, hm⟩) hreset
  · intro s t k ts ⟨hc, ht⟩ e
    rw [step_reset hc ht] at e
    cases e
    exact resetTurn_dstate k _

/-- Settles O49: the step that changed the latch is found by cases, and each of the three events has its effect. -/
theorem inputErrorLatch : Obligations.InputErrorLatch := by
  refine ⟨?_, ?_, ?_, ?_⟩
  · intro s t e hne
    obtain ⟨hc, h⟩ := step_next e
    rcases h.inErr hne with h | ⟨hin, hcode, ms, ts, ht, he, hm⟩ | h
    · exact .inl h
    · exact .inr (.inl ⟨hin, hcode, ms, ts, ⟨hc, ht⟩, he, hm⟩)
    · exact .inr (.inr h)
  · exact fun s ms ts ⟨hc, ht⟩ hm => step_inputError hc ht hm
  · intro s t e hcode
    rcases (execRecv_next e).inErr with ⟨hn, _⟩ | ⟨_, hin⟩
    · exact (hn hcode).elim
    · exact hin
  · intro s t k ts ⟨hc, ht⟩ e
    rw [step_reset hc ht] at e
    cases e
    exact resetTurn_inErr k _

/-- Settles O58: each field of STATUS is read at its place. -/
theorem statusFields : Obligations.StatusFields := by
  refine ⟨⟨rfl, rfl, rfl, rfl, rfl, rfl, rfl, rfl, rfl, rfl, rfl, rfl⟩, fun s => ?_⟩
  refine ⟨?_, s.statusWord_code, ?_, ?_, ?_, s.statusWord_inErr⟩
  · rw [s.statusWord_resync]
    exact s.code.resync_iff_bits
  all_goals rw [s.statusWord_dstate]
  · exact DState.bits_inj (e := .idle)
  · exact DState.bits_inj (e := .delivering)
  · exact DState.bits_inj (e := .errHeld)

/-- Settles O57: a write to a read-write register changes the reading of that register alone, and what other writes and
a read of CMD do. -/
theorem csrFieldAccess : Obligations.CsrFieldAccess := by
  refine ⟨?_, ?_, ?_, ?_⟩
  · intro s o v ms ts ho ⟨⟨hc, ht⟩, he, hm⟩
    obtain ⟨r, ⟨hro, hcmd⟩, rfl⟩ := mem_roOffsets.1 ho
    rw [step_store hcmd hc ht he hm, State.csrStore_of_not_isRW _ _ hro]
  · intro s o mask v ms ts ho ⟨⟨hc, ht⟩, he, hm⟩
    obtain ⟨r, hrw, rfl, rfl⟩ := mem_rwFields.1 ho
    have hcmd : r ≠ .cmd := by rintro rfl; cases hrw
    refine ⟨_, step_store hcmd hc ht he hm, ?_, ?_, ?_⟩
    · exact mem_csrValues.2 ⟨r, rfl, State.csrRead_csrStore_self _ v hrw⟩
    · intro o' x hne hx
      obtain ⟨q, rfl, rfl⟩ := mem_csrValues.1 hx
      have hqr : q ≠ r := fun h => hne (h ▸ rfl)
      exact mem_csrValues.2 ⟨q, rfl, State.csrRead_csrStore_of_ne _ v hqr⟩
    · rw [State.csrStore_frame]
      exact ⟨rfl, rfl, rfl, rfl⟩
  · intro s ms ts ⟨⟨hc, ht⟩, he, hm⟩
    exact step_load (r := .cmd) hc ht he hm
  · exact fun s => ⟨s.statusWord_reserved, reserved_setWidth _, reserved_setWidth _, reserved_setWidth _⟩

end Proofs

end Sys2Proof

namespace Sys2Proof

/-- A row of the opcode map is taken, with its zero field checked, or the rows below it are. -/
theorem of_ite_mustBeZero {p : Prop} [Decidable p] {mask w : Word} {i j : Instr} {rest : Except Illegal Instr}
    (h : (if p then mustBeZero mask w j else rest) = .ok i) : (p ∧ w &&& mask = 0#32 ∧ j = i) ∨ rest = .ok i := by
  by_cases hp : p
  · rw [if_pos hp, mustBeZero] at h
    split at h
    · rename_i hz
      exact .inl ⟨hp, hz, Except.ok.inj h⟩
    · cases h
  · rw [if_neg hp] at h
    exact .inr h

/-- A command whose row fixes every bit has one word (R98). -/
theorem eq_encode_of_decodeCmd {w : Word} {i : Instr} (hm : i.row.mask = 0xFFFFFFFF#32) (h : decodeCmd w = .ok i) :
    w = encode i := by
  unfold decodeCmd at h
  iterate 3 -- RECV, DONE, SKIP
    rcases of_ite_mustBeZero h with ⟨hopc, hz, rfl⟩ | h
    · rw [eq_setWidth_cmdOpc hz, hopc]
      rfl
  iterate 2 -- RDPIX, RDDATA
    rcases of_ite_mustBeZero h with ⟨_, _, rfl⟩ | h
    · simp [Instr.row] at hm
  rcases of_ite_mustBeZero h with ⟨hopc, hz, rfl⟩ | h
  · rw [eq_setWidth_cmdOpc hz, hopc]
    rfl
  iterate 3 -- the queries
    rcases of_ite_mustBeZero h with ⟨_, _, rfl⟩ | h
    · simp [Instr.row] at hm
  cases h

/-! ## The length field in bytes (R60) -/

theorem hdrPayload_headerWord (a b c d : Byte) : hdrPayload (headerWord a b c d) = c.toNat * 256 + d.toNat := by
  simp only [hdrPayload, toNat_field, toNat_headerWord]
  omega

/-- Header byte 2 stands in bits 15 to 8. -/
theorem byte2_headerWord (a b c d : Byte) : (headerWord a b c d).extractLsb' 8 8 = c := by
  apply BitVec.eq_of_toNat_eq
  simp only [toNat_field, toNat_headerWord]
  omega

/-- Header byte 3 stands in bits 7 to 0. -/
theorem byte3_headerWord (a b c d : Byte) : (headerWord a b c d).extractLsb' 0 8 = d := by
  apply BitVec.eq_of_toNat_eq
  simp only [toNat_field, toNat_headerWord]
  omega

/-- The high byte and the low byte of a field make up its number. -/
theorem toNat_hiByte_loByte (v : Half) : (hiByte v).toNat * 256 + (loByte v).toNat = v.toNat := by
  simp only [hiByte, loByte, toNat_field]
  omega

/-- A header built from its parts is its bytes, the length's high byte before its low byte. -/
theorem mkHeader_eq_headerWord (ch tag : Byte) (len : Nat) :
    mkHeader ch tag len = headerWord ch tag (hiByte (BitVec.ofNat 16 len)) (loByte (BitVec.ofNat 16 len)) := by
  have hlen := toNat_hiByte_loByte (BitVec.ofNat 16 len)
  apply BitVec.eq_of_toNat_eq
  rw [toNat_mkHeader, toNat_headerWord, Nat.add_assoc (_ + _), hlen, BitVec.toNat_ofNat]

/-- A header word's bytes in wire order are those it was built from. -/
theorem headerBytes_headerWord (a b c d : Byte) : headerBytes (headerWord a b c d) = [a, b, c, d] := by
  rw [headerBytes, byte2_headerWord, byte3_headerWord]
  exact congrArg₂ (fun x y => [x, y, c, d]) (hdrChan_headerWord a b c d) (hdrTag_headerWord a b c d)

theorem headerBytes_mkHeader (ch tag : Byte) (len : Nat) :
    headerBytes (mkHeader ch tag len) = [ch, tag, hiByte (BitVec.ofNat 16 len), loByte (BitVec.ofNat 16 len)] := by
  rw [mkHeader_eq_headerWord, headerBytes_headerWord]

namespace Machine

/-- The third transaction of a SEND writes the length, its high byte first (R146). -/
theorem State.outstanding_of_w3 {s : State} (h : s.ephase = .w3) :
    s.outstanding = some (.write [hiByte (BitVec.ofNat 16 s.txLength), loByte (BitVec.ofNat 16 s.txLength)]) := by
  simp only [State.outstanding, h]

/-! ## A delivered frame stays (R77) -/

/-- `t` holds the frame `s` holds, and what the RX registers say of it; RXBUF can have grown at its tail. -/
structure HeldFrameKept (s t : State) : Prop where
  dstate : t.dstate = s.dstate
  rxHdr : t.rxHdr = s.rxHdr
  rxPixcnt : t.rxPixcnt = s.rxPixcnt
  rxSysid : t.rxSysid = s.rxSysid
  rxDlen : t.rxDlen = s.rxDlen
  rxbuf : s.rxbuf <+: t.rxbuf

/-- As many bytes as RXBUF had stay at its front. -/
theorem HeldFrameKept.take_rxbuf {s t : State} (h : HeldFrameKept s t) {n : Nat} (hn : n ≤ s.rxCount) :
    t.rxbuf.take n = s.rxbuf.take n := by
  obtain ⟨rest, hrest⟩ := h.rxbuf
  rw [← hrest, List.take_append_of_le_length hn]

/-- RECV in DELIVERING changes CODE alone (R180). -/
theorem RecvCase.eq_of_delivering {s t : State} (h : RecvCase s t) (hd : s.dstate = .delivering) :
    t = s.finish .badState := by
  cases h with
  | refused => rfl
  | inputError hn | noHeader hn | noPayload hn | pixels hn | malformed hn | sysex hn | unrecognized hn =>
    exact (hn hd).elim

/-- While a message is delivered, every command but DONE keeps its frame: RECV and SKIP are refused, and the others
leave the decoder. -/
theorem exec_heldFrameKept {i : Instr} {s t : State} (hi : i.space = .cmd) (hn : i ≠ .done)
    (e : exec i s = .next t) (hd : s.dstate = .delivering) : HeldFrameKept s t := by
  rcases exec_next_cases hi e with ⟨_, h⟩ | ⟨_, h, ⟨hdone, _⟩ | ⟨_, rfl⟩⟩ | ⟨_, _, _, rfl⟩
  · rw [h.eq_of_delivering hd]
    exact ⟨rfl, rfl, rfl, rfl, rfl, List.prefix_rfl⟩
  · exact (hn hdone).elim
  · rcases release_next h with ⟨he, _⟩ | ⟨_, rfl⟩
    · rw [hd] at he
      cases he
    · exact ⟨rfl, rfl, rfl, rfl, rfl, List.prefix_rfl⟩
  · exact ⟨rfl, rfl, rfl, rfl, rfl, List.prefix_rfl⟩

/-- While a message is delivered, every step but DONE and reset keeps its frame. -/
theorem StepCase.heldFrameKept {s t : State} (h : StepCase s t) (hd : s.dstate = .delivering)
    (hdone : ∀ ms ts, s.turns = .host :: ts → s.ephase = .idle →
      s.host ≠ .write 32 (s.cfg.csrBase + 0x0C) (encode .done) :: ms)
    (hreset : ∀ k ts, s.turns ≠ .reset k :: ts) : HeldFrameKept s t := by
  cases h with
  | command w i ms ts _ h he hm hw hx =>
    have hi : i ≠ .done := by
      rintro rfl
      exact hdone ms ts h he (eq_encode_of_decodeCmd rfl hw ▸ hm)
    obtain ⟨hstate, hhdr, hpix, hid, hdlen, hbuf⟩ := exec_heldFrameKept (decodeCmd_space hw) hi hx hd
    exact ⟨hstate, hhdr, hpix, hid, hdlen, hbuf⟩
  | reset k ts h => exact (hreset k ts h).elim
  | push b => exact ⟨rfl, rfl, rfl, rfl, rfl, List.prefix_append _ [b]⟩
  | store _ _ v r =>
    rw [State.csrStore_frame]
    exact ⟨rfl, rfl, rfl, rfl, rfl, List.prefix_rfl⟩
  | sink x a as ts =>
    obtain ⟨_, _, _, e⟩ := sinkAnswers_frame x a { s with turns := ts, sink := as }
    rw [e]
    exact ⟨rfl, rfl, rfl, rfl, rfl, List.prefix_rfl⟩
  | quiet | passed | illegal | load | txw | inputError => exact ⟨rfl, rfl, rfl, rfl, rfl, List.prefix_rfl⟩

end Machine

namespace Proofs

open Sys2Proof.Machine Sys2Proof.Claims

/-- Settles O6: the header word as a number on receive, the two bytes of W3 on send. -/
theorem lengthFieldBigEndian : Obligations.LengthFieldBigEndian := by
  refine ⟨fun b0 b1 b2 b3 => ?_, fun s hp hl => ?_, fun ch tag => ?_⟩
  · exact ⟨hdrPayload_headerWord b0 b1 b2 b3, byte2_headerWord b0 b1 b2 b3, byte3_headerWord b0 b1 b2 b3⟩
  · refine ⟨_, _, State.outstanding_of_w3 hp, ?_⟩
    rw [toNat_hiByte_loByte, BitVec.toNat_ofNat, Nat.mod_eq_of_lt (by omega)]
  · exact ⟨headerBytes_mkHeader ch tag 30, headerBytes_mkHeader ch tag 12⟩

/-- Settles O53: R50 has the whole frame in RXBUF, and the steps in question change RXBUF at its tail alone. -/
theorem deliveredFrameStays : Obligations.DeliveredFrameStays := by
  intro s t ⟨_, hheld, _⟩ hd e hdone hreset
  obtain ⟨hc, h⟩ := step_next e
  obtain ⟨_, hlen⟩ := hheld (by rw [hd]; decide)
  have hkept := h.heldFrameKept hd (fun ms ts ht he hm => hdone ms ts ⟨⟨hc, ht⟩, he, hm⟩) hreset
  exact ⟨hkept.dstate.trans hd, hkept.rxHdr, hkept.rxPixcnt, hkept.rxSysid, hkept.rxDlen, hkept.take_rxbuf hlen⟩

end Proofs

end Sys2Proof

namespace Sys2Proof

/-! ## The zero fields of a CMD word (R97) and its row in the opcode table (R98) -/

/-- A field is 0 exactly where the word is 0 under the field's mask. -/
theorem field_eq_zero_iff (w : Word) (lo len : Nat) :
    w.extractLsb' lo len = 0#len ↔ w &&& ((BitVec.allOnes len).setWidth 32 <<< lo) = 0#32 := by
  simp only [BitVec.eq_of_getLsbD_eq_iff, BitVec.getLsbD_and, BitVec.getLsbD_shiftLeft, BitVec.getLsbD_setWidth,
    BitVec.getLsbD_allOnes, BitVec.getLsbD_extractLsb', BitVec.getLsbD_zero]
  constructor
  · intro h i hi
    specialize h (i - lo)
    grind
  · intro h i hi
    have hlt : w.getLsbD (lo + i) = true → lo + i < 32 := BitVec.lt_of_getLsbD
    specialize h (lo + i)
    grind

/-- The opcode map of R97: each OPC, and the mask of the fields that must be 0 with it. -/
def opcodeMap : List (Byte × Word) :=
  [(0x01#8, 0xFFFFFF00#32), (0x02#8, 0xFFFFFF00#32), (0x03#8, 0xFFFFFF00#32), (0x04#8, 0x0000FF00#32),
   (0x05#8, 0x0000FF00#32), (0x08#8, 0xFFFFFF00#32), (0x09#8, 0xFFFFFE00#32), (0x0A#8, 0xFFFFFE00#32),
   (0x0B#8, 0xFFFFFE00#32)]

/-- The decoder accepts the words whose OPC is in the map and whose fields that must be 0 are 0. -/
theorem exists_decodeCmd_iff (w : Word) :
    (∃ i, decodeCmd w = .ok i) ↔ ∃ e ∈ opcodeMap, cmdOpc w = e.1 ∧ w &&& e.2 = 0#32 := by
  constructor
  · rintro ⟨i, h⟩
    unfold decodeCmd at h
    iterate 9 -- the rows of the map
      rcases of_ite_mustBeZero h with ⟨hopc, hz, _⟩ | h
      · exact ⟨(_, _), by decide, hopc, hz⟩
    cases h
  · rintro ⟨e, he, hopc, hz⟩
    fin_cases he <;> exact ⟨_, by simp only [decodeCmd, mustBeZero, hopc, hz]; rfl⟩

/-- The two cases of R99 are the words the decoder refuses: an OPC outside the map is the first, and for each OPC of
the map the second is a field that is not 0 under the map's mask. -/
theorem illegalWord_iff (w : Word) : Claims.IllegalWord w ↔ ¬ ∃ i, decodeCmd w = .ok i := by
  have h24 : w.extractLsb' 8 24 = 0#24 ↔ w &&& 0xFFFFFF00#32 = 0#32 := field_eq_zero_iff w 8 24
  have h8 : w.extractLsb' 8 8 = 0#8 ↔ w &&& 0x0000FF00#32 = 0#32 := field_eq_zero_iff w 8 8
  have h23 : w.extractLsb' 9 23 = 0#23 ↔ w &&& 0xFFFFFE00#32 = 0#32 := field_eq_zero_iff w 9 23
  rw [exists_decodeCmd_iff, Claims.IllegalWord, cmdOpc, Ne, Ne, Ne, h24, h8, h23]
  by_cases hopc : w.extractLsb' 0 8 ∈ [0x01#8, 0x02#8, 0x03#8, 0x04#8, 0x05#8, 0x08#8, 0x09#8, 0x0A#8, 0x0B#8]
  · generalize w.extractLsb' 0 8 = opc at hopc ⊢
    fin_cases hopc <;> simp [opcodeMap]
  · simp only [List.mem_cons, List.not_mem_nil, or_false, not_or] at hopc
    simp [opcodeMap, hopc]

/-- The CMD rows of the table are the opcode map, in order. -/
theorem map_cmdRows_eq_opcodeMap :
    cmdRows.map (fun r => (cmdOpc r.pattern, r.mask &&& 0xFFFFFF00#32)) = opcodeMap := rfl

/-- Each CMD row fixes every bit of OPC, and fixes bits above OPC to 0 alone. -/
theorem cmdRows_low_byte : ∀ r ∈ cmdRows, cmdOpc r.mask = BitVec.allOnes 8 ∧ r.pattern &&& 0xFFFFFF00#32 = 0#32 := by
  decide

/-- Every CMD row has its own OPC. -/
theorem cmdRows_opc_injOn : ∀ r ∈ cmdRows, ∀ q ∈ cmdRows, cmdOpc r.pattern = cmdOpc q.pattern → r = q := by
  decide

/-- A word is a word of a CMD row iff it has the row's OPC and is 0 where the row fixes bits above OPC. -/
theorem matches_row_iff {r : OpcodeRow} (hr : r ∈ cmdRows) (w : Word) :
    w &&& r.mask = r.pattern ↔ cmdOpc w = cmdOpc r.pattern ∧ w &&& (r.mask &&& 0xFFFFFF00#32) = 0#32 := by
  obtain ⟨hmask, hpat⟩ := cmdRows_low_byte r hr
  have hopc : cmdOpc (w &&& r.mask) = cmdOpc w := by
    rw [cmdOpc, BitVec.extractLsb'_and, ← cmdOpc, ← cmdOpc, hmask, BitVec.and_allOnes]
  rw [← BitVec.and_assoc, ← hopc]
  constructor
  · intro h
    rw [h]
    exact ⟨rfl, hpat⟩
  · rintro ⟨ho, hz⟩
    rw [eq_setWidth_cmdOpc hz, ho, ← eq_setWidth_cmdOpc hpat]

/-- The decoder accepts the words of the table's CMD rows (R98). -/
theorem exists_decodeCmd_iff_exists_row (w : Word) :
    (∃ i, decodeCmd w = .ok i) ↔ ∃ r ∈ cmdRows, w &&& r.mask = r.pattern := by
  rw [exists_decodeCmd_iff, ← map_cmdRows_eq_opcodeMap]
  simp only [List.mem_map, exists_exists_and_eq_and]
  exact exists_congr fun r => and_congr_right fun hr => (matches_row_iff hr w).symm

/-- No word is a word of two CMD rows. -/
theorem row_unique {w : Word} {r q : OpcodeRow} (hr : r ∈ cmdRows) (hq : q ∈ cmdRows)
    (hwr : w &&& r.mask = r.pattern) (hwq : w &&& q.mask = q.pattern) : r = q := by
  obtain ⟨hropc, _⟩ := (matches_row_iff hr w).1 hwr
  obtain ⟨hqopc, _⟩ := (matches_row_iff hq w).1 hwq
  exact cmdRows_opc_injOn r hr q hq (hropc.symm.trans hqopc)

/-- An index above a low half `c` is the index shifted there (R98). -/
theorem index_append_eq_or (k : Nat) (c : Half) :
    (BitVec.ofNat 16 k ++ c : Word) = (BitVec.ofNat 32 k <<< 16) ||| c.setWidth 32 := by
  have hshift : (BitVec.ofNat 32 k <<< 16).toNat = (BitVec.ofNat 16 k).toNat <<< 16 := by
    simp only [BitVec.toNat_shiftLeft, BitVec.toNat_ofNat, Nat.shiftLeft_eq]
    omega
  apply BitVec.eq_of_toNat_eq
  rw [BitVec.toNat_append, BitVec.toNat_or, hshift, BitVec.toNat_setWidth_of_le (by decide)]

namespace Machine

open Sys2Proof.Claims

/-- A word the decoder refuses completes with ILLEGAL_CMD (R99). -/
theorem issue_of_refused {w : Word} (h : ¬ ∃ i, decodeCmd w = .ok i) (s : State) :
    issue w s = .next (s.finish .illegalCmd) := by
  unfold issue
  cases hd : decodeCmd w with
  | ok i => exact (h ⟨i, hd⟩).elim
  | error _ => rfl

/-- A CMD write issues the word, with the host's move and the turn taken. -/
theorem step_of_commandTurn {s : State} {w : Word} {ms : List HostMove} {ts : List Turn} (h : CommandTurn s w ms ts) :
    step s = issue w { s with turns := ts, host := ms } := by
  obtain ⟨⟨hc, ht⟩, he, hm⟩ := h
  rw [step_host hc ht he hm, hostMove, hostWrite, csrAccess_eq_cmd.2 ⟨rfl, rfl⟩]

end Machine

namespace Proofs

open Sys2Proof.Machine Sys2Proof.Claims

/-- Settles O3: a word's OPC leaves it at most one row, and the decoder accepts it iff that row's zero fields are 0. -/
theorem commandLegalIffTableRow : Obligations.CommandLegalIffTableRow := by
  refine ⟨fun w => ?_, rfl, by decide, fun _ => ⟨rfl, rfl⟩, fun _ => ⟨rfl, rfl, rfl⟩, rfl, rfl, rfl, rfl,
    fun k _ => index_append_eq_or k _, fun k _ => index_append_eq_or k _, rfl, rfl, rfl, rfl, rfl, rfl⟩
  rw [exists_decodeCmd_iff_exists_row]
  constructor
  · rintro ⟨r, hr, hw⟩
    exact ⟨r, ⟨hr, hw⟩, fun _ ⟨hq, hwq⟩ => row_unique hq hr hwq hw⟩
  · rintro ⟨r, hrow, _⟩
    exact ⟨r, hrow⟩

/-- Settles O4: the words of R99 are those the decoder refuses, and a refused word's write is `finish` alone. -/
theorem illegalWordOnlySetsCode : Obligations.IllegalWordOnlySetsCode := by
  refine ⟨illegalWord_iff, fun s w ms ts hturn hw => ?_⟩
  rw [step_of_commandTurn hturn, issue_of_refused ((illegalWord_iff w).1 hw)]
  rfl

end Proofs

end Sys2Proof

namespace Sys2Proof

/-! ## The frame a message encodes to (R144) -/

/-- A field built from two bytes has the first as its high byte. -/
theorem hiByte_append (a b : Byte) : hiByte (a ++ b) = a := by
  apply BitVec.eq_of_toNat_eq
  simp only [hiByte, toNat_field, toNat_append_eq]
  omega

/-- A field built from two bytes has the second as its low byte. -/
theorem loByte_append (a b : Byte) : loByte (a ++ b) = b := by
  apply BitVec.eq_of_toNat_eq
  simp only [loByte, toNat_field, toNat_append_eq]
  omega

namespace Machine

open Sys2Proof.Claims

theorem Message.length_payload (m : Message) : m.payload.length = m.length := by
  obtain ⟨ch, ps | ⟨id0, id1, data⟩⟩ := m
  · exact length_flatMap_pixelBytes ps
  · exact Nat.add_comm data.length 2

theorem Message.encode_eq (m : Message) :
    m.encode = headerBytes (mkHeader m.channel m.tag m.length) ++ m.payload := by
  rw [← m.length_payload]
  rfl

theorem Message.length_encode (m : Message) : m.encode.length = 4 + m.length := by
  rw [m.encode_eq, List.length_append, m.length_payload]
  rfl

/-- A message of no payload byte is one of length 0. -/
theorem Message.payload_eq_nil {m : Message} : m.payload = [] ↔ m.length = 0 := by
  rw [← m.length_payload, List.length_eq_zero_iff]

/-! ## The TX message (R122) -/

/-- The TX registers describe the TX message, and TXMEM holds its payload. -/
theorem State.tx_of_txMessage {s : State} {m : Message} (h : s.txMessage = some m) :
    s.txChan = m.channel ∧ s.txTag = m.tag ∧ s.txPayload = some m.payload := by
  unfold State.txMessage at h
  split at h <;> rename_i hk <;> split at h <;> cases h <;> rename_i hb
  · obtain ⟨_, hbytes⟩ := pixelsFrom_bytes.1 hb
    have hm : s.txMemBytes = 3 * s.txCount.toNat := if_pos hk
    refine ⟨rfl, if_pos hk, ?_⟩
    simp only [State.txPayload, hm, hbytes, if_pos hk, Message.payload]
  · have hm : s.txMemBytes = s.txCount.toNat := if_neg hk
    refine ⟨rfl, if_neg hk, ?_⟩
    simp only [State.txPayload, hm, hb, if_neg hk, Message.payload]

/-- The length the TX registers give is the TX message's. -/
theorem State.txLength_of_txMessage {s : State} {m : Message} (h : s.txMessage = some m) : s.txLength = m.length := by
  obtain ⟨_, _, hp⟩ := s.tx_of_txMessage h
  rw [← State.length_txPayload hp, m.length_payload]

/-! ## A SEND whose every answer is `ok` -/

/-- SEND of a valid message that is all written and in range starts its first transaction (R146). -/
theorem execSend_of_ready {s : State} {p : List Byte} (hl : s.txLength ≤ 65535)
    (hr : s.txBase.toNat + s.txMemBytes ≤ s.cfg.txmemSize) (hp : s.txPayload = some p) :
    execSend s = .next (s.setPhase .w1) := by
  rcases execSend_cases s with ⟨h, _⟩ | ⟨_, h, _⟩ | ⟨_, _, _, _, e⟩ | ⟨_, _, h, _⟩
  · omega
  · omega
  · exact e
  · rw [hp] at h
    cases h

/-- The answer `ok` to a write goes to the next phase. -/
theorem step_write_ok {s : State} {x : SinkTxn} {as : List SinkAnswer} {ts : List Turn}
    (h : SinkGives s .ok as ts) (hx : s.outstanding = some x) (hf : s.ephase ≠ .flush) :
    step s = .next { s with
      turns := ts, sink := as, sinkLog := s.sinkLog ++ [⟨x, .ok⟩], ephase := s.phaseAfter } := by
  obtain ⟨⟨hc, ht⟩, hm⟩ := h
  rw [step_sink hc ht hx hm]
  exact congrArg _ (if_neg hf)

/-- The answer `ok` to the flush ends the SEND. -/
theorem step_flush_ok {s : State} {as : List SinkAnswer} {ts : List Turn}
    (h : SinkGives s .ok as ts) (hf : s.ephase = .flush) :
    step s = .next { s with
      turns := ts, sink := as, sinkLog := s.sinkLog ++ [⟨.flush, .ok⟩], ephase := .idle, code := .ok } := by
  obtain ⟨⟨hc, ht⟩, hm⟩ := h
  have hx : s.outstanding = some .flush := by simp only [State.outstanding, hf]
  rw [step_sink hc ht hx hm]
  simp [sinkAnswers, hf, State.phaseAfter, State.logTxn, State.setPhase, State.finish]

/-- With nothing outstanding the sink's turn passes (R234). -/
theorem step_sink_passes {s : State} {ts : List Turn} (h : TurnOf s .sink ts) (he : s.ephase = .idle) :
    step s = .next { s with turns := ts } := by
  obtain ⟨hc, ht⟩ := h
  simp [step, hc, nextTurn, ht, takeTurn, sinkTurn, he]

/-- The three transactions of a frame's header, each answered `ok`, lead to W4, or for an empty payload to FLUSH
(R146, R148). -/
theorem runFor_header_ok {s : State} {m : Message} {as : List SinkAnswer} {ts : List Turn}
    (hc : configRefusal s.cfg = none) (hm : s.txMessage = some m) (he : s.ephase = .w1)
    (ht : s.turns = .sink :: .sink :: .sink :: ts) (ha : s.sink = .ok :: .ok :: .ok :: as) :
    runFor 3 s = .next { s with
      turns := ts, sink := as, ephase := if m.length = 0 then .flush else .w4
      sinkLog := s.sinkLog ++ [⟨.write [m.channel], .ok⟩, ⟨.write [m.tag], .ok⟩,
        ⟨.write [hiByte (BitVec.ofNat 16 m.length), loByte (BitVec.ofNat 16 m.length)], .ok⟩] } := by
  obtain ⟨hchan, htag, _⟩ := s.tx_of_txMessage hm
  have hx : s.outstanding = some (.write [s.txChan]) := by simp only [State.outstanding, he]
  have hn : s.phaseAfter = .w2 := by simp only [State.phaseAfter, he]
  rw [← hchan, ← htag, ← State.txLength_of_txMessage hm]
  refine Eq.trans (runFor_succ 2 (step_write_ok ⟨⟨hc, ht⟩, ha⟩ hx (by rw [he]; decide))) ?_
  rw [hn]
  refine Eq.trans (runFor_succ 1 (step_write_ok ⟨⟨hc, rfl⟩, rfl⟩ rfl nofun)) ?_
  refine Eq.trans (runFor_succ 0 (step_write_ok ⟨⟨hc, rfl⟩, rfl⟩ rfl nofun)) ?_
  simp only [runFor, List.append_assoc, List.cons_append, List.nil_append]
  rfl

/-- The last two turns of the sink: the payload and the flush, or for an empty payload the flush and a turn that passes
(R146, R148). -/
theorem runFor_payload_ok {s : State} {m : Message} {as : List SinkAnswer} {ts : List Turn}
    (hc : configRefusal s.cfg = none) (hm : s.txMessage = some m)
    (he : s.ephase = if m.length = 0 then .flush else .w4)
    (ht : s.turns = .sink :: .sink :: ts) (ha : s.sink = .ok :: .ok :: as) :
    runFor 2 s = .next { s with
      turns := ts, sink := if m.length = 0 then .ok :: as else as, ephase := .idle, code := .ok
      sinkLog := s.sinkLog ++ ((if m.payload = [] then [] else [⟨.write m.payload, .ok⟩]) ++ [⟨.flush, .ok⟩]) } := by
  obtain ⟨_, _, hpay⟩ := s.tx_of_txMessage hm
  by_cases hl : m.length = 0
  · rw [if_pos hl] at he
    rw [if_pos hl, if_pos (Message.payload_eq_nil.2 hl)]
    refine Eq.trans (runFor_succ 1 (step_flush_ok ⟨⟨hc, ht⟩, ha⟩ he)) ?_
    exact runFor_succ 0 (step_sink_passes ⟨hc, rfl⟩ rfl)
  · rw [if_neg hl] at he
    rw [if_neg hl, if_neg (mt Message.payload_eq_nil.1 hl), ← List.append_assoc]
    have hx : s.outstanding = some (.write m.payload) := by simp only [State.outstanding, he, hpay, Option.map_some]
    have hn : s.phaseAfter = .flush := by simp only [State.phaseAfter, he]
    refine Eq.trans (runFor_succ 1 (step_write_ok ⟨⟨hc, ht⟩, ha⟩ hx (by rw [he]; decide))) ?_
    exact runFor_succ 0 (step_flush_ok ⟨⟨hc, rfl⟩, rfl⟩ hn)

/-- A SEND whose every answer is `ok` logs the transactions of R146 in order and, but for the agents' moves and CODE,
changes nothing else. -/
theorem runFor_send_ok {s : State} {m : Message} {ms : List HostMove} {ts : List Turn} {as : List SinkAnswer}
    (h : CommandTurn s (encode .send) ms (.sink :: .sink :: .sink :: .sink :: .sink :: ts))
    (hm : s.txMessage = some m) (hl : m.length ≤ 65535) (hr : s.txBase.toNat + s.txMemBytes ≤ s.cfg.txmemSize)
    (ha : s.sink = .ok :: .ok :: .ok :: .ok :: .ok :: as) :
    runFor 6 s = .next { s with
      turns := ts, host := ms, code := .ok, sink := if m.length = 0 then .ok :: as else as
      sinkLog := s.sinkLog ++ acceptedLog m.channel m.tag m.payload } := by
  obtain ⟨_, _, hpay⟩ := s.tx_of_txMessage hm
  have ⟨⟨hc, _⟩, he, _⟩ := h
  have hsend : step s = .next (({ s with turns := _, host := ms } : State).setPhase .w1) :=
    (step_of_commandTurn h).trans (execSend_of_ready (State.txLength_of_txMessage hm ▸ hl) hr hpay)
  refine Eq.trans (runFor_succ 5 hsend) ?_
  refine Eq.trans (runFor_add 3 2 (runFor_header_ok hc hm rfl rfl ha)) ?_
  refine Eq.trans (runFor_payload_ok hc hm rfl rfl rfl) ?_
  rw [acceptedLog, m.length_payload, he, List.append_assoc _ _ [_]]
  simp only [State.setPhase, List.append_assoc]
  rfl

/-- The sink stream of a log that grows is the stream and what the new entries add. -/
theorem sinkStream_append (log new : List SinkEntry) : sinkStream (log ++ new) = sinkStream log ++ sinkStream new :=
  List.flatMap_append

/-- The transactions of an accepted SEND add its frame to the sink stream (R142, R144). -/
theorem sinkStream_acceptedLog (m : Message) : sinkStream (acceptedLog m.channel m.tag m.payload) = m.encode := by
  rw [m.encode_eq, headerBytes_mkHeader, ← m.length_payload]
  by_cases hp : m.payload = [] <;> simp [acceptedLog, hp, sinkStream, SinkEntry.accepted, hiByte, loByte]

/-! ## Pushes (R171) -/

/-- A push that RXBUF has room for appends its byte. -/
theorem step_push {s : State} {b : Byte} {mvs : List SourceMove} {ts : List Turn} (h : TurnOf s .source ts)
    (hm : s.source = .push b :: mvs) (hl : s.rxCount < s.cfg.bufCap) :
    step s = .next (({ s with turns := ts, source := mvs } : State).append b) := by
  obtain ⟨hc, ht⟩ := h
  simp [step, hc, nextTurn, ht, takeTurn, sourceTurn, hm, hl]

/-- The source pushes the bytes `bs` one after another, where RXBUF has room for all of them. -/
theorem runFor_pushes {mvs : List SourceMove} {ts : List Turn} (bs : List Byte) : ∀ {s : State},
    configRefusal s.cfg = none → s.turns = List.replicate bs.length .source ++ ts → s.source = bs.map .push ++ mvs →
    s.rxCount + bs.length ≤ s.cfg.bufCap →
    runFor bs.length s = .next { s with turns := ts, source := mvs, rxbuf := s.rxbuf ++ bs } := by
  induction bs with
  | nil =>
    intro s _ ht hs _
    obtain rfl : s.turns = ts := ht
    obtain rfl : s.source = mvs := hs
    rw [List.append_nil]
    rfl
  | cons b bs ih =>
    intro s hc ht hs hl
    rw [List.length_cons] at hl
    refine Eq.trans (runFor_succ bs.length (step_push ⟨hc, ht⟩ hs (by omega))) ?_
    have hroom : (s.rxbuf ++ [b]).length + bs.length ≤ s.cfg.bufCap := by
      rw [List.length_append, List.length_singleton, Nat.add_assoc, Nat.add_comm 1]
      exact hl
    refine Eq.trans (ih hc rfl rfl hroom) ?_
    rw [State.append_rxbuf, List.append_assoc]
    rfl

/-- BUF_CAP of a configuration that is not refused holds the longest frame (R8). -/
theorem bufCap_of_configRefusal {c : Config} (h : configRefusal c = none) : 65539 ≤ c.bufCap := by
  unfold configRefusal at h
  split at h
  · cases h
  · omega

/-! ## RECV of an encoded message -/

/-- RECV ends in a next state from every state: where it looks at the id of a SystemExclusive message, the whole frame is
buffered. -/
theorem execRecv_isNext (s : State) : ∃ t, execRecv s = .next t := by
  unfold execRecv
  rcases receive_cases parseFront s with ⟨_, e⟩ | ⟨_, _, e⟩ | ⟨_, _, e⟩ <;> rw [e]
  · exact ⟨_, rfl⟩
  · exact ⟨_, rfl⟩
  rcases parseFront_cases s.clearRx with ⟨_, e⟩ | ⟨h, _, ⟨_, e⟩ | ⟨_, e⟩ | ⟨_, _, e⟩⟩ <;> rw [e]
  · exact ⟨_, rfl⟩
  all_goals
    rcases withHeader_cases h _ s.clearRx with ⟨_, e⟩ | ⟨hl, e⟩ <;> rw [e]
    · exact ⟨_, rfl⟩
  · exact ⟨_, rfl⟩
  · rcases parseSysex_cases (hdrPayload h) (s.clearRx.setHdr h) with ⟨_, e⟩ | ⟨_, _, _, _, _, e⟩ | ⟨hp, hb, _⟩
    · exact ⟨_, e⟩
    · exact ⟨_, e⟩
    · have hb : s.clearRx.rxCount < 6 := hb
      unfold frameLen at hl
      simp only [hdrLen] at hl
      omega
  · exact ⟨_, rfl⟩

/-- RECV changes STATUS and the RX registers alone. -/
theorem RecvCase.frame {s t : State} (h : RecvCase s t) :
    t = { s with
      code := t.code, dstate := t.dstate, inErr := t.inErr, rxHdr := t.rxHdr, rxPixcnt := t.rxPixcnt
      rxSysid := t.rxSysid, rxDlen := t.rxDlen } := by
  cases h <;> rfl

/-- A run of bytes within RXBUF is read as it stands there. -/
theorem State.bytesFrom_rxByte {s : State} {pre bs rest : List Byte} (h : s.rxbuf = pre ++ (bs ++ rest)) :
    bytesFrom s.rxByte pre.length bs.length = some bs := by
  refine bytesFrom_eq_some.2 ⟨rfl, fun j hj => ?_⟩
  rw [State.rxByte, h, List.getElem?_append_right (Nat.le_add_right _ _), Nat.add_sub_cancel_left,
    List.getElem?_append_left hj]

/-- RECV with a whole frame at the front presents its message, or holds it as failed (R182 to R184). -/
theorem RecvCase.of_frame {s t : State} {hdr : Word} (h : RecvCase s t) (hd : s.dstate ≠ .delivering)
    (hi : s.inErr = false) (hf : s.rxFront = some hdr) (hl : frameLen hdr ≤ s.rxCount) :
    (hdrTag hdr = tagSpc ∧ t = (s.clearRx.setHdr hdr).presentPixels (BitVec.ofNat 16 (hdrPayload hdr / 3))) ∨
    (hdrTag hdr = tagSysex ∧ hdrPayload hdr < 2 ∧ t = (s.clearRx.setHdr hdr).holdError .malformed) ∨
    (hdrTag hdr = tagSysex ∧ 2 ≤ hdrPayload hdr ∧ ∃ a b, s.rxByte 4 = some a ∧ s.rxByte 5 = some b ∧
      t = (s.clearRx.setHdr hdr).presentSysex (a ++ b) (BitVec.ofNat 16 (hdrPayload hdr - 2))) ∨
    (hdrTag hdr ≠ tagSpc ∧ hdrTag hdr ≠ tagSysex ∧ t = (s.clearRx.setHdr hdr).holdError .unrecognized) := by
  cases h with
  | refused hd' => exact (hd hd').elim
  | inputError _ hi' => rw [hi] at hi'; cases hi'
  | noHeader _ _ hf' => rw [hf] at hf'; cases hf'
  | noPayload _ _ _ hf' hl' => cases hf.symm.trans hf'; exact (Nat.not_lt.2 hl hl').elim
  | pixels _ _ _ hf' _ ht => cases hf.symm.trans hf'; exact .inl ⟨ht, rfl⟩
  | malformed _ _ _ hf' _ ht hp => cases hf.symm.trans hf'; exact .inr (.inl ⟨ht, hp, rfl⟩)
  | sysex _ _ _ hf' _ ht hp a b ha hb =>
    cases hf.symm.trans hf'
    exact .inr (.inr (.inl ⟨ht, hp, a, b, ha, hb, rfl⟩))
  | unrecognized _ _ _ hf' _ h0 h1 => cases hf.symm.trans hf'; exact .inr (.inr (.inr ⟨h0, h1, rfl⟩))

/-- The whole frame of a message is at the front of bytes that begin with it. -/
theorem State.front_of_encode {s : State} {m : Message} {rest : List Byte} (hl : m.length ≤ 65535)
    (hb : s.rxbuf = m.encode ++ rest) :
    s.rxFront = some (mkHeader m.channel m.tag m.length) ∧
      frameLen (mkHeader m.channel m.tag m.length) ≤ s.rxCount := by
  constructor
  · rw [State.rxFront, hb, m.encode_eq, List.append_assoc, headerOf_headerBytes]
  · rw [State.rxCount, hb, List.length_append, m.length_encode, frameLen, hdrPayload_mkHeader _ _ (by omega)]
    exact Nat.le_add_right _ _

/-- The RX message of a SetPixelColors frame is the pixels that stand behind its header. -/
theorem State.rxMessage_of_pixels {s : State} {ps : List Pixel} {rest : List Byte} (hd : s.dstate = .delivering)
    (ht : hdrTag s.rxHdr = tagSpc) (hn : s.rxPixcnt.toNat = ps.length)
    (hb : s.rxbuf = headerBytes s.rxHdr ++ (ps.flatMap Pixel.bytes ++ rest)) :
    s.rxMessage = some ⟨hdrChan s.rxHdr, .setPixelColors ps⟩ := by
  have hread : pixelsFrom s.rxByte 4 ps.length = some ps :=
    pixelsFrom_bytes.2 ⟨rfl, length_flatMap_pixelBytes ps ▸ State.bytesFrom_rxByte hb⟩
  simp only [State.rxMessage, if_pos hd, if_pos ht, hn, hread]

/-- The RX message of a SystemExclusive frame is the id and the data that stand behind its header. -/
theorem State.rxMessage_of_sysex {s : State} {id0 id1 : Byte} {data rest : List Byte}
    (hd : s.dstate = .delivering) (ht : hdrTag s.rxHdr = tagSysex) (hn : s.rxDlen.toNat = data.length)
    (hid : s.rxSysid = id0 ++ id1) (hb : s.rxbuf = headerBytes s.rxHdr ++ (id0 :: id1 :: data ++ rest)) :
    s.rxMessage = some ⟨hdrChan s.rxHdr, .systemExclusive id0 id1 data⟩ := by
  have hread : bytesFrom s.rxByte 6 data.length = some data :=
    State.bytesFrom_rxByte (pre := headerBytes s.rxHdr ++ [id0, id1]) (rest := rest) hb
  have ht' : hdrTag s.rxHdr ≠ tagSpc := by rw [ht]; decide
  simp only [State.rxMessage, if_pos hd, if_neg ht', hn, hread, hid, hiByte_append, loByte_append]

/-- RECV of the frame of a valid message, whatever follows it, delivers the message. -/
theorem RecvCase.of_encode {s t : State} {m : Message} {rest : List Byte} (h : RecvCase s t)
    (hd : s.dstate ≠ .delivering) (hi : s.inErr = false) (hl : m.length ≤ 65535) (hb : s.rxbuf = m.encode ++ rest) :
    t.code = .delivered ∧ t.dstate = .delivering ∧ t.rxHdr = mkHeader m.channel m.tag m.length ∧
      t.rxMessage = some m := by
  obtain ⟨hf, hfl⟩ := State.front_of_encode hl hb
  have hpay := hdrPayload_mkHeader m.channel m.tag (Nat.lt_succ_of_le hl)
  have htag := hdrTag_mkHeader m.channel m.tag m.length
  have hchan := hdrChan_mkHeader m.channel m.tag m.length
  have hcase := h.of_frame hd hi hf hfl
  rw [htag, hpay] at hcase
  rw [m.encode_eq, List.append_assoc] at hb
  generalize mkHeader m.channel m.tag m.length = hdr at *
  obtain ⟨ch, ps | ⟨id0, id1, data⟩⟩ := m <;> simp only [Message.length, Message.tag, Message.payload] at *
  · rcases hcase with ⟨_, rfl⟩ | ⟨hne, _⟩ | ⟨hne, _⟩ | ⟨hne, _⟩
    · have hn : (BitVec.ofNat 16 (3 * ps.length / 3)).toNat = ps.length := by
        rw [Nat.mul_div_cancel_left _ (by decide), BitVec.toNat_ofNat]
        omega
      refine ⟨rfl, rfl, rfl, ?_⟩
      rw [← hchan]
      exact State.rxMessage_of_pixels rfl htag hn hb
    · cases hne
    · cases hne
    · exact (hne rfl).elim
  · rcases hcase with ⟨hne, _⟩ | ⟨_, hlt, _⟩ | ⟨_, _, a, b, ha, hb', rfl⟩ | ⟨_, hne, _⟩
    · cases hne
    · omega
    · rw [State.rxByte, hb] at ha hb'
      obtain rfl : id0 = a := Option.some.inj ha
      obtain rfl : id1 = b := Option.some.inj hb'
      have hn : (BitVec.ofNat 16 (2 + data.length - 2)).toNat = data.length := by
        rw [Nat.add_sub_cancel_left, BitVec.toNat_ofNat]
        omega
      refine ⟨rfl, rfl, rfl, ?_⟩
      rw [← hchan]
      exact State.rxMessage_of_sysex rfl htag hn rfl hb
    · exact (hne rfl).elim

/-- The host's RECV with the frame of a valid message at the front of RXBUF delivers the message. -/
theorem step_recv_of_encode {s : State} {m : Message} {rest : List Byte} {ms : List HostMove} {ts : List Turn}
    (h : CommandTurn s (encode .recv) ms ts) (hd : s.dstate ≠ .delivering) (hi : s.inErr = false)
    (hl : m.length ≤ 65535) (hb : s.rxbuf = m.encode ++ rest) :
    ∃ t, step s = .next t ∧ t.code = .delivered ∧ t.rxMessage = some m ∧ t.turns = ts ∧ t.sinkLog = s.sinkLog := by
  obtain ⟨t, ht⟩ := execRecv_isNext { s with turns := ts, host := ms }
  have hcase := execRecv_next ht
  obtain ⟨hcode, _, _, hmsg⟩ := hcase.of_encode hd hi hl hb
  refine ⟨t, (step_of_commandTurn h).trans ht, hcode, hmsg, ?_, ?_⟩ <;> rw [hcase.frame]

/-- SEND with every answer `ok`, then the source's pushes of the bytes the sink accepted: RXBUF holds the frame. -/
theorem runFor_send_push {s : State} {m : Message} {ms : List HostMove} {mvs : List SourceMove}
    {as : List SinkAnswer} {ts : List Turn}
    (h : CommandTurn s (encode .send) ms
      (.sink :: .sink :: .sink :: .sink :: .sink :: (List.replicate m.encode.length .source ++ ts)))
    (hm : s.txMessage = some m) (hl : m.length ≤ 65535) (hr : s.txBase.toNat + s.txMemBytes ≤ s.cfg.txmemSize)
    (ha : s.sink = .ok :: .ok :: .ok :: .ok :: .ok :: as) (hs : s.source = m.encode.map .push ++ mvs)
    (hb : s.rxbuf = []) :
    runFor (6 + m.encode.length) s = .next { s with
      turns := ts, host := ms, source := mvs, code := .ok, sink := if m.length = 0 then .ok :: as else as
      sinkLog := s.sinkLog ++ acceptedLog m.channel m.tag m.payload, rxbuf := m.encode } := by
  have ⟨⟨hc, _⟩, _⟩ := h
  have hroom : s.rxCount + m.encode.length ≤ s.cfg.bufCap := by
    have hcap := bufCap_of_configRefusal hc
    rw [State.rxCount, hb, m.length_encode, List.length_nil]
    omega
  refine Eq.trans (runFor_add 6 m.encode.length (runFor_send_ok h hm hl hr ha)) ?_
  refine Eq.trans (runFor_pushes m.encode hc rfl hs hroom) ?_
  rw [hb]
  rfl

end Machine

namespace Proofs

open Sys2Proof.Machine Sys2Proof.Claims

/-- Settles O37: the SEND logs the frame, the pushes lay it in RXBUF, and the RECV delivers the message it encodes. -/
theorem roundTrip : Obligations.RoundTrip := by
  intro s m ms mvs as ts hturn hm hl hr hsink hsource hbuf hd hi
  have ⟨⟨hc, _⟩, he, _⟩ := hturn
  have hpushed := runFor_send_push hturn hm hl hr hsink hsource hbuf
  obtain ⟨u, hu, hcmd, hud, hui, hub, hlog⟩ : ∃ u, runFor (6 + m.encode.length) s = .next u ∧
      CommandTurn u (encode .recv) ms ts ∧ u.dstate ≠ .delivering ∧ u.inErr = false ∧ u.rxbuf = m.encode ++ [] ∧
      u.sinkLog = s.sinkLog ++ acceptedLog m.channel m.tag m.payload :=
    ⟨_, hpushed, ⟨⟨hc, rfl⟩, he, rfl⟩, by rw [hd]; decide, hi, (List.append_nil _).symm, rfl⟩
  obtain ⟨t, hrecv, hcode, hmsg, hturns, hkept⟩ := step_recv_of_encode hcmd hud hui hl hub
  refine ⟨t, ?_, ?_, hcode, hmsg, hturns⟩
  · exact (runFor_add (6 + m.encode.length) 1 hu).trans (runFor_succ 0 hrecv)
  · rw [hkept, hlog, sinkStream_append, sinkStream_acceptedLog]

end Proofs

end Sys2Proof

namespace Sys2Proof

namespace Machine

open Sys2Proof.Claims

/-! ## The queries (R125, R127, R129) -/

/-- Where OPC and a field leave only illegal words, each such word is refused (R99). -/
theorem zeroFieldChecked_of_illegalWord {opc : Byte} {low width : Nat}
    (h : ∀ w : Word, w.extractLsb' 0 8 = opc → w.extractLsb' low width ≠ 0#width → IllegalWord w) :
    ZeroFieldChecked opc low width :=
  fun w s hopc hfield => issue_of_refused ((illegalWord_iff w).1 (h w hopc hfield)) s

/-- The words of a query have 0 above SEL. -/
theorem zeroFieldChecked_query {opc : Byte} (h : opc ∈ [0x09#8, 0x0A#8, 0x0B#8]) : ZeroFieldChecked opc 9 23 :=
  zeroFieldChecked_of_illegalWord fun _ hopc hfield => .inr (.inr (.inr ⟨hopc ▸ h, hfield⟩))

theorem State.selLength_rx_of_delivering {s : State} (h : s.dstate = .delivering) :
    s.selLength .rx = some s.rxLength := if_pos h

theorem State.selLength_rx_of_not_delivering {s : State} (h : s.dstate ≠ .delivering) :
    s.selLength .rx = none := if_neg h

theorem State.selChannel_rx_of_delivering {s : State} (h : s.dstate = .delivering) :
    s.selChannel .rx = some (hdrChan s.rxHdr) := if_pos h

theorem State.selChannel_rx_of_not_delivering {s : State} (h : s.dstate ≠ .delivering) :
    s.selChannel .rx = none := if_neg h

/-- A query of a message that is there answers. -/
theorem query_of_some {α : Type} {selected : Option α} {v : α} (h : selected = some v) (f : α → Word) (s : State) :
    query selected f s = .next (s.answer (f v)) := by
  rw [h]
  rfl

/-- A query of a message that is not there gives BAD_STATE. -/
theorem query_of_none {α : Type} {selected : Option α} (h : selected = none) (f : α → Word) (s : State) :
    query selected f s = .next (s.finish .badState) := by
  rw [h]
  rfl

theorem truthWord_decide (p : Prop) [Decidable p] : truthWord (decide p) = if p then 1#32 else 0#32 := by
  simp only [truthWord, decide_eq_true_eq]

/-- The TX message is at most `3 * (2^24 - 1)` long, as TX_COUNT has 24 bits (R44, R125). -/
theorem State.txLength_le (s : State) : s.txLength ≤ 50331645 := by
  have hcount := s.txCount.isLt
  simp only [State.txLength, pixelBytes, sysidBytes]
  split <;> omega

/-- A delivered message is as long as its payload holds, so it is valid (R127). -/
theorem State.rxLength_le_of_inv {s : State} (h : s.Inv) (hd : s.dstate = .delivering) : s.rxLength ≤ 65535 := by
  obtain ⟨⟨_, _, hvalid, _⟩, hregs, _⟩ := h
  obtain ⟨hpix, hsysex⟩ := hregs hd
  have hpay := hdrPayload_lt s.rxHdr
  rcases hvalid hd with ht | ⟨ht, _⟩
  · obtain ⟨hn, _⟩ := hpix ht
    rw [State.rxLength, if_pos ht, hn, BitVec.toNat_ofNat]
    simp only [pixelBytes]
    omega
  · obtain ⟨_, hn, _⟩ := hsysex ht
    have ht' : hdrTag s.rxHdr ≠ tagSpc := by rw [ht]; decide
    rw [State.rxLength, if_neg ht', hn, BitVec.toNat_ofNat]
    simp only [sysidBytes]
    omega

/-- ISVALID answers whether the length is at most MAX_LEN. -/
theorem execIsvalid_of_some {s : State} {sel : Sel} {n : Nat} (h : s.selLength sel = some n) :
    execIsvalid sel s = .next (s.answer (if n ≤ 65535 then 1#32 else 0#32)) := by
  rw [← truthWord_decide]
  exact query_of_some h _ s

/-- ISBCAST answers whether the channel is 0. -/
theorem execIsbcast_of_some {s : State} {sel : Sel} {ch : Byte} (h : s.selChannel sel = some ch) :
    execIsbcast sel s = .next (s.answer (if ch = 0#8 then 1#32 else 0#32)) := by
  rw [← truthWord_decide]
  exact query_of_some h _ s

end Machine

namespace Proofs

open Sys2Proof.Machine Sys2Proof.Claims

/-- Settles O9: the query of the length, its bound by the width of TX_COUNT, and its words. -/
theorem lengthCommand : Obligations.LengthCommand := by
  refine ⟨fun s => ?_, State.txLength_le, fun s hd => ?_, fun s hd => ?_, rfl, rfl, zeroFieldChecked_query (by decide)⟩
  · exact query_of_some (v := s.txLength) rfl _ s
  · exact query_of_some (State.selLength_rx_of_delivering hd) _ s
  · exact query_of_none (State.selLength_rx_of_not_delivering hd) _ s

/-- Settles O10: the query of the length against MAX_LEN; under the invariant a delivered length is within it. -/
theorem isvalidCommand : Obligations.IsvalidCommand := by
  refine ⟨fun s => ?_, fun s hd => ?_, fun s hd => ?_, fun s hs hd => ?_, rfl, rfl,
    zeroFieldChecked_query (by decide)⟩
  · exact execIsvalid_of_some (n := s.txLength) rfl
  · exact execIsvalid_of_some (State.selLength_rx_of_delivering hd)
  · exact query_of_none (State.selLength_rx_of_not_delivering hd) _ s
  · have h := execIsvalid_of_some (State.selLength_rx_of_delivering hd)
    rwa [if_pos (State.rxLength_le_of_inv hs hd)] at h

/-- Settles O11: the query of the channel, which reads nothing else of the message. -/
theorem isbcastCommand : Obligations.IsbcastCommand := by
  refine ⟨fun s => ?_, fun s hd => ?_, fun s hd => ?_, rfl, rfl, zeroFieldChecked_query (by decide)⟩
  · exact execIsbcast_of_some (ch := s.txChan) rfl
  · exact execIsbcast_of_some (State.selChannel_rx_of_delivering hd)
  · exact query_of_none (State.selChannel_rx_of_not_delivering hd) _ s

/-- Settles O20: a SEND that starts has passed the length check and read its payload, which has as many bytes as LENGTH
reports; W3 and W4 are formed from the same registers. -/
theorem lengthIsAccurate : Obligations.LengthIsAccurate := by
  refine ⟨fun s t e ht he => ?_, fun s hl => ?_⟩
  · rcases execSend_cases s with ⟨_, e'⟩ | ⟨_, _, e'⟩ | ⟨hl, _, p, hp, e'⟩ | ⟨_, _, _, e'⟩ <;>
      cases e.symm.trans e'
    · exact nomatch he.symm.trans ht
    · exact nomatch he.symm.trans ht
    · refine ⟨s.txLength, p, query_of_some (v := s.txLength) rfl _ s, hl, ?_, ?_, State.length_txPayload hp⟩
      · refine ⟨_, _, State.outstanding_of_w3 rfl, ?_⟩
        rw [toNat_hiByte_loByte]
        exact Nat.mod_eq_of_lt (Nat.lt_succ_of_le hl)
      · exact congrArg (Option.map _) hp
  · exact if_pos hl

end Proofs

end Sys2Proof

namespace Sys2Proof

namespace Machine

open Sys2Proof.Claims

/-! ## A SEND that fails (R141 to R143) -/

/-- The answer `fail` ends the SEND, whatever the transaction (R147). -/
theorem step_sink_fail {s : State} {x : SinkTxn} {k : Nat} {as : List SinkAnswer} {ts : List Turn}
    (h : SinkGives s (.fail k) as ts) (hx : s.outstanding = some x) :
    step s = .next { s with
      turns := ts, sink := as, sinkLog := s.sinkLog ++ [⟨x, .fail k⟩], ephase := .idle, code := .ioFailure } := by
  obtain ⟨⟨hc, ht⟩, hm⟩ := h
  exact step_sink hc ht hx hm

/-- An ended transaction adds to the sink stream what the sink accepted of it (R142). -/
theorem sinkStream_concat (log : List SinkEntry) (e : SinkEntry) :
    sinkStream (log ++ [e]) = sinkStream log ++ e.accepted := by
  rw [sinkStream_append]
  exact congrArg _ (List.flatMap_singleton _ _)

/-- For each length there are sink answers that end the SEND in flight with IO_FAILURE, when just that much of `bytes`
has been added to the sink stream. -/
def State.CanFailAfterAnyPrefix (s : State) (bytes : List Byte) : Prop :=
  ∀ n ≤ bytes.length, ∃ (k : Nat) (as : List SinkAnswer) (t : State),
    runFor k { s with sink := as, turns := List.replicate k .sink } = .next t ∧
    t.code = .ioFailure ∧ t.ephase = .idle ∧ sinkStream t.sinkLog = sinkStream s.sinkLog ++ bytes.take n

/-- A flush that fails leaves the sink stream as it is. -/
theorem State.canFailAfterAnyPrefix_of_flush {s : State} (hc : configRefusal s.cfg = none) (he : s.ephase = .flush) :
    s.CanFailAfterAnyPrefix [] := by
  have hx : s.outstanding = some .flush := by simp only [State.outstanding, he]
  intro n _
  refine ⟨1, [.fail 0], _, runFor_succ 0 (step_sink_fail ⟨⟨hc, rfl⟩, rfl⟩ hx), rfl, rfl, ?_⟩
  rw [List.take_nil]
  exact sinkStream_concat _ _

/-- A write that fails keeps any of its first bytes; to leave more takes the answer `ok` and a failure further on. -/
theorem State.canFailAfterAnyPrefix_of_write {s : State} {bs rest : List Byte} (hc : configRefusal s.cfg = none)
    (hx : s.outstanding = some (.write bs)) (hf : s.ephase ≠ .flush)
    (hrest : ({ s with sinkLog := s.sinkLog ++ [⟨.write bs, .ok⟩], ephase := s.phaseAfter } :
      State).CanFailAfterAnyPrefix rest) :
    s.CanFailAfterAnyPrefix (bs ++ rest) := by
  intro n hn
  by_cases hle : n ≤ bs.length
  · refine ⟨1, [.fail n], _, runFor_succ 0 (step_sink_fail ⟨⟨hc, rfl⟩, rfl⟩ hx), rfl, rfl, ?_⟩
    rw [List.take_append_of_le_length hle]
    exact sinkStream_concat _ _
  · rw [List.length_append] at hn
    obtain ⟨k, as, t, hrun, hcode, hidle, hstream⟩ := hrest (n - bs.length) (by omega)
    refine ⟨k + 1, .ok :: as, t, ?_, hcode, hidle, ?_⟩
    · exact Eq.trans (runFor_succ k (step_write_ok ⟨⟨hc, rfl⟩, rfl⟩ hx hf)) hrun
    · have hkept := sinkStream_concat s.sinkLog ⟨.write bs, .ok⟩
      rw [hstream, hkept, List.take_append, List.take_of_length_le (Nat.le_of_not_le hle), List.append_assoc]
      rfl

/-- From the phase after the header on, the payload is left to fail in, or for an empty payload the flush alone
(R148). -/
theorem State.canFailAfterAnyPrefix_of_payload {s : State} {m : Message} (hc : configRefusal s.cfg = none)
    (hm : s.txMessage = some m) (he : s.ephase = if m.length = 0 then .flush else .w4) :
    s.CanFailAfterAnyPrefix m.payload := by
  obtain ⟨_, _, hpay⟩ := s.tx_of_txMessage hm
  by_cases hl : m.length = 0
  · rw [if_pos hl] at he
    rw [Message.payload_eq_nil.2 hl]
    exact State.canFailAfterAnyPrefix_of_flush hc he
  · rw [if_neg hl] at he
    have hx : s.outstanding = some (.write m.payload) := by simp only [State.outstanding, he, hpay, Option.map_some]
    have hn : s.phaseAfter = .flush := by simp only [State.phaseAfter, he]
    rw [← List.append_nil m.payload]
    exact State.canFailAfterAnyPrefix_of_write hc hx (by rw [he]; decide)
      (State.canFailAfterAnyPrefix_of_flush hc hn)

/-- A SEND whose first transaction is outstanding has its whole frame to fail in: the three writes of the header, then
the payload. -/
theorem State.canFailAfterAnyPrefix_of_w1 {s : State} {m : Message} (hc : configRefusal s.cfg = none)
    (hm : s.txMessage = some m) (he : s.ephase = .w1) : s.CanFailAfterAnyPrefix m.encode := by
  obtain ⟨hchan, htag, _⟩ := s.tx_of_txMessage hm
  have hlen := State.txLength_of_txMessage hm
  have hframe : m.encode = [s.txChan] ++ ([s.txTag] ++
      ([hiByte (BitVec.ofNat 16 s.txLength), loByte (BitVec.ofNat 16 s.txLength)] ++ m.payload)) := by
    rw [m.encode_eq, headerBytes_mkHeader, hchan, htag, hlen]
    rfl
  have hx : s.outstanding = some (.write [s.txChan]) := by simp only [State.outstanding, he]
  have hn : s.phaseAfter = .w2 := by simp only [State.phaseAfter, he]
  rw [hframe]
  refine State.canFailAfterAnyPrefix_of_write hc hx (by rw [he]; decide) ?_
  rw [hn]
  refine State.canFailAfterAnyPrefix_of_write hc rfl nofun ?_
  refine State.canFailAfterAnyPrefix_of_write hc rfl nofun ?_
  exact State.canFailAfterAnyPrefix_of_payload hc hm (hlen ▸ rfl)

/-! ## Empty writes and an empty payload (R148) -/

/-- Only W4 writes a payload, which is not empty there; every other write has a byte of the header or two (R148). -/
theorem State.outstanding_write_ne_nil {s : State} {bs : List Byte} (hs : s.sendReady)
    (hx : s.outstanding = some (.write bs)) : bs ≠ [] := by
  obtain ⟨_, hw4⟩ := hs
  rintro rfl
  cases he : s.ephase with
  | w4 =>
    rw [State.outstanding, he] at hx
    obtain ⟨p, hp, ⟨⟩⟩ := Option.map_eq_some_iff.1 hx
    exact hw4 he (State.length_txPayload hp).symm
  | idle | w1 | w2 | w3 | flush =>
    rw [State.outstanding, he] at hx
    cases hx

/-- A message with a system id has at least the id's two bytes, so one of length 0 is SetPixelColors. -/
theorem State.txKind_of_txLength_eq_zero {s : State} (h : s.txLength = 0) : s.txKind = 0#1 := by
  by_contra hk
  rw [State.txLength, if_neg hk] at h
  simp only [sysidBytes] at h
  omega

/-! ## What a SEND touches (R151) -/

/-- A sink turn passes, or answers the outstanding transaction. -/
theorem sinkTurn_next {s t : State} (h : sinkTurn s = .next t) :
    t = s ∨ ∃ x a as, t = sinkAnswers x a { s with sink := as } := by
  unfold sinkTurn at h
  split at h
  · cases h
    exact .inl rfl
  split at h
  · cases h
  rename_i x _
  split at h
  · cases h
    exact .inl rfl
  · rename_i a as _
    cases h
    exact .inr ⟨x, a, as, rfl⟩

/-- A sink answer adds an entry to the sink log. -/
theorem sinkAnswers_sinkLog (x : SinkTxn) (a : SinkAnswer) (s : State) :
    ∃ r, (sinkAnswers x a s).sinkLog = s.sinkLog ++ [⟨x, r⟩] := by
  rcases sinkAnswers_cases x a s with ⟨_, _, e⟩ | ⟨_, _, e⟩ | ⟨k, _, e⟩ <;> rw [e] <;> exact ⟨_, rfl⟩

/-- A sink turn changes CODE, EPHASE, the sink's answers to come and the sink log alone, and the log only grows. -/
theorem sinkTurn_frame {s t : State} (h : sinkTurn s = .next t) :
    t = { s with code := t.code, ephase := t.ephase, sinkLog := t.sinkLog, sink := t.sink } ∧
      ∃ l, t.sinkLog = s.sinkLog ++ l := by
  rcases sinkTurn_next h with rfl | ⟨x, a, as, rfl⟩
  · exact ⟨rfl, [], (List.append_nil _).symm⟩
  · obtain ⟨r, hlog⟩ := sinkAnswers_sinkLog x a { s with sink := as }
    obtain ⟨c, p, log, e⟩ := sinkAnswers_frame x a { s with sink := as }
    exact ⟨by rw [e], [⟨x, r⟩], hlog⟩

/-- A step whose turn is the sink's is the sink's turn. -/
theorem step_of_sinkTurn {s : State} {ts : List Turn} (h : TurnOf s .sink ts) :
    step s = sinkTurn { s with turns := ts } := by
  obtain ⟨hc, ht⟩ := h
  simp only [step, hc, nextTurn, ht, takeTurn]

end Machine

namespace Proofs

open Sys2Proof.Machine Sys2Proof.Claims

/-- Settles O18: the SEND starts its first write, and from there the first `n` bytes of the frame end in one of its
writes, which fails and keeps just what is left of them. -/
theorem failedSendLeavesAnyPrefix : Obligations.FailedSendLeavesAnyPrefix := by
  intro s m ms ts n hturn hm hl hr hn
  obtain ⟨⟨hc, _⟩, he, hhost⟩ := hturn
  obtain ⟨_, _, hpay⟩ := s.tx_of_txMessage hm
  have hw1 : ({ s with host := ms, ephase := .w1 } : State).CanFailAfterAnyPrefix m.encode :=
    State.canFailAfterAnyPrefix_of_w1 hc hm rfl
  obtain ⟨k, as, t, hrun, hend⟩ := hw1 n hn
  have hsend : step { s with sink := as, turns := .host :: List.replicate k .sink } =
      .next (({ s with host := ms, sink := as, turns := List.replicate k .sink } : State).setPhase .w1) :=
    Eq.trans (step_of_commandTurn ⟨⟨hc, rfl⟩, he, hhost⟩)
      (execSend_of_ready (State.txLength_of_txMessage hm ▸ hl) hr hpay)
  exact ⟨k, as, t, Eq.trans (runFor_succ k hsend) hrun, hend⟩

/-- Settles O21: the invariant keeps W4 from an empty payload, and the answer `ok` to W3 passes W4 over. -/
theorem sinkWritesAreNotEmpty : Obligations.SinkWritesAreNotEmpty := by
  refine ⟨fun s bs hs hx => ?_, fun s as ts h he hl => ⟨State.txKind_of_txLength_eq_zero hl, ?_⟩⟩
  · obtain ⟨_, _, _, hsend, _⟩ := hs
    exact State.outstanding_write_ne_nil hsend hx
  · refine ⟨_, step_write_ok h (State.outstanding_of_w3 he) (by rw [he]; decide), ?_⟩
    simp only [State.phaseAfter, he, hl, if_true]

/-- Settles O24: SEND's own step and the sink's turn each keep every field but those R151 names. -/
theorem sendTouchesOnlyTheSink : Obligations.SendTouchesOnlyTheSink := by
  refine ⟨fun s t h => ?_, fun s t ts hturn h => ?_⟩
  · obtain ⟨c, p, rfl⟩ := execSend_next h
    exact ⟨rfl, fun _ => rfl⟩
  · obtain ⟨hframe, hlog⟩ := sinkTurn_frame ((step_of_sinkTurn hturn).symm.trans h)
    exact ⟨hframe, hlog, fun _ => by rw [hframe]⟩

end Proofs

end Sys2Proof

namespace Sys2Proof

/-! ## The words of RDPIX and RDDATA (R98) -/

/-- OPC of a word with an index above `c` is the low byte of `c`. -/
theorem cmdOpc_index (k : Nat) (c : Half) : cmdOpc (BitVec.ofNat 16 k ++ c) = loByte c := by
  apply BitVec.eq_of_toNat_eq
  simp only [cmdOpc, loByte, toNat_field, toNat_append_eq]
  omega

theorem cmdIdx_index {k : Nat} (hk : k < 65536) (c : Half) : cmdIdx (BitVec.ofNat 16 k ++ c) = k := by
  have hc := c.isLt
  simp only [cmdIdx, toNat_field, toNat_append_eq, BitVec.toNat_ofNat]
  omega

/-- An index leaves the zero field of its word as `c` has it. -/
theorem mustBeZero_index (k : Nat) {c : Half} (hc : c.setWidth 32 &&& 0x0000FF00#32 = 0#32) (i : Instr) :
    mustBeZero 0x0000FF00#32 (BitVec.ofNat 16 k ++ c) i = .ok i := by
  have hmask : (0x0000FF00#32 : Word) = 0x0000FFFF#32 &&& 0x0000FF00#32 := rfl
  refine if_pos ?_
  rw [hmask, ← BitVec.and_assoc, Laws.Row.index_word, hc]

theorem decodeCmd_rdpix {k : Nat} (hk : k < 65536) :
    decodeCmd ((BitVec.ofNat 32 k <<< 16) ||| 0x04#32) = .ok (.rdpix k) := by
  refine (congrArg decodeCmd (index_append_eq_or k 0x0004#16)).symm.trans ?_
  rw [decodeCmd, cmdOpc_index, cmdIdx_index hk]
  exact mustBeZero_index k (by decide) _

theorem decodeCmd_rddata {k : Nat} (hk : k < 65536) :
    decodeCmd ((BitVec.ofNat 32 k <<< 16) ||| 0x05#32) = .ok (.rddata k) := by
  refine (congrArg decodeCmd (index_append_eq_or k 0x0005#16)).symm.trans ?_
  rw [decodeCmd, cmdOpc_index, cmdIdx_index hk]
  exact mustBeZero_index k (by decide) _

namespace Machine

open Sys2Proof.Claims

/-- The words of RECV, DONE, SKIP and SEND have 0 above OPC. -/
theorem zeroFieldChecked_plain {opc : Byte} (h : opc ∈ [0x01#8, 0x02#8, 0x03#8, 0x08#8]) :
    ZeroFieldChecked opc 8 24 :=
  zeroFieldChecked_of_illegalWord fun _ hopc hfield => .inr (.inl ⟨hopc ▸ h, hfield⟩)

/-- The words of RDPIX and RDDATA have 0 between OPC and IDX. -/
theorem zeroFieldChecked_index {opc : Byte} (h : opc ∈ [0x04#8, 0x05#8]) : ZeroFieldChecked opc 8 8 :=
  zeroFieldChecked_of_illegalWord fun _ hopc hfield => .inr (.inr (.inl ⟨hopc ▸ h, hfield⟩))

/-! ## Releasing a frame (R190, R195) -/

/-- In its DSTATE, DONE or SKIP consumes the frame RX_HDR announces, where that is buffered. -/
theorem release_of_held {held : DState} {s : State} (hd : s.dstate = held) (hl : frameLen s.rxHdr ≤ s.rxCount) :
    release held s =
      .next (({ s with rxbuf := s.rxbuf.drop (frameLen s.rxHdr) } : State).clearRx.finish .ok) := by
  rcases release_cases held s with ⟨_, _, e⟩ | ⟨hne, _⟩ | ⟨_, hlt, _⟩
  · exact e
  · exact (hne hd).elim
  · exact (Nat.not_lt.2 hl hlt).elim

/-- In every other DSTATE DONE or SKIP gives BAD_STATE. -/
theorem release_of_not_held {held : DState} {s : State} (hd : s.dstate ≠ held) :
    release held s = .next (s.finish .badState) := if_neg hd

/-- R50 has a held frame whole in RXBUF. -/
theorem State.frameLen_le_of_r50 {s : State} (h : s.R50) (hd : s.dstate ≠ .idle) :
    frameLen s.rxHdr ≤ s.rxCount := by
  obtain ⟨_, hheld, _⟩ := h
  exact (hheld hd).2

/-! ## Reading an item (R200, R202) -/

theorem readItem_of_not_delivering {s : State} (hd : s.dstate ≠ .delivering) (i count : Nat) (item : Option Word) :
    readItem i count item s = .next (s.finish .badState) := if_neg hd

theorem readItem_of_le {s : State} {i count : Nat} (hd : s.dstate = .delivering) (hi : count ≤ i)
    (item : Option Word) : readItem i count item s = .next (s.finish .badIndex) :=
  (if_pos hd).trans (if_pos hi)

theorem readItem_of_some {s : State} {i count : Nat} {v : Word} (hd : s.dstate = .delivering) (hi : i < count) :
    readItem i count (some v) s = .next (s.answer v) :=
  (if_pos hd).trans (if_neg (Nat.not_le.2 hi))

theorem State.pixelWord_of_bytes {s : State} {i : Nat} {r g b : Byte} (hr : s.rxbuf[4 + 3 * i]? = some r)
    (hg : s.rxbuf[5 + 3 * i]? = some g) (hb : s.rxbuf[6 + 3 * i]? = some b) :
    s.pixelWord i = some (0x00#8 ++ r ++ g ++ b) := by
  simp only [State.pixelWord, State.rxByte, hr, hg, hb]

theorem State.dataWord_of_byte {s : State} {i : Nat} {b : Byte} (hb : s.rxbuf[6 + i]? = some b) :
    s.dataWord i = some (b.setWidth 32) := by
  simp only [State.dataWord, State.rxByte, hb]

/-- The counts of a delivered message: the pixels that fit a SetPixelColors payload and no data, or no pixel and the
data behind a SystemExclusive id. -/
theorem State.counts_of_inv {s : State} (h : s.Inv) (hd : s.dstate = .delivering) :
    (hdrTag s.rxHdr = tagSpc ∧ s.rxPixcnt.toNat = hdrPayload s.rxHdr / 3 ∧ s.rxDlen.toNat = 0) ∨
    (hdrTag s.rxHdr = tagSysex ∧ s.rxPixcnt.toNat = 0 ∧ s.rxDlen.toNat = hdrPayload s.rxHdr - 2) := by
  obtain ⟨⟨_, _, hvalid, _⟩, hregs, _⟩ := h
  obtain ⟨hpix, hsysex⟩ := hregs hd
  have hpay := hdrPayload_lt s.rxHdr
  rcases hvalid hd with ht | ⟨ht, _⟩
  · obtain ⟨hn, _, hz⟩ := hpix ht
    refine .inl ⟨ht, ?_, by rw [hz]; rfl⟩
    rw [hn, BitVec.toNat_ofNat]
    omega
  · obtain ⟨hz, hn, _⟩ := hsysex ht
    refine .inr ⟨ht, by rw [hz]; rfl, ?_⟩
    rw [hn, BitVec.toNat_ofNat]
    omega

/-- The items of a delivered message are buffered. -/
theorem State.items_buffered_of_inv {s : State} (h : s.Inv) (hd : s.dstate = .delivering) (i : Nat) :
    (i < s.rxPixcnt.toNat → 6 + 3 * i < s.rxCount) ∧ (i < s.rxDlen.toNat → 6 + i < s.rxCount) := by
  have hcounts := State.counts_of_inv h hd
  obtain ⟨hr50, _⟩ := h
  have hlen := State.frameLen_le_of_r50 hr50 (by rw [hd]; decide)
  simp only [frameLen, hdrLen] at hlen
  omega

/-- A delivered SystemExclusive message has no pixel. -/
theorem State.rxPixcnt_of_sysex {s : State} (h : s.Inv) (hd : s.dstate = .delivering)
    (ht : hdrTag s.rxHdr = tagSysex) : s.rxPixcnt.toNat = 0 := by
  rcases State.counts_of_inv h hd with ⟨ht', _⟩ | ⟨_, hz, _⟩
  · cases ht.symm.trans ht'
  · exact hz

/-- A delivered SetPixelColors message has no data. -/
theorem State.rxDlen_of_pixels {s : State} (h : s.Inv) (hd : s.dstate = .delivering)
    (ht : hdrTag s.rxHdr = tagSpc) : s.rxDlen.toNat = 0 := by
  rcases State.counts_of_inv h hd with ⟨_, _, hz⟩ | ⟨ht', _⟩
  · exact hz
  · cases ht.symm.trans ht'

/-! ## RECV, by what is buffered (R180 to R184) -/

theorem execRecv_of_delivering {s : State} (hd : s.dstate = .delivering) :
    execRecv s = .next (s.finish .badState) := if_pos hd

theorem execRecv_of_inErr {s : State} (hd : s.dstate ≠ .delivering) (hi : s.inErr = true) :
    execRecv s = .next (s.clearRx.clearInErr.finish .ioFailure) := by
  rw [execRecv, receive, if_neg hd, if_pos hi]

/-- With no header buffered RECV reports INCOMPLETE_HEADER. -/
theorem RecvCase.of_noHeader {s t : State} (h : RecvCase s t) (hd : s.dstate ≠ .delivering) (hi : s.inErr = false)
    (hf : s.rxFront = none) : t = s.clearRx.finish .incompleteHeader := by
  cases h with
  | refused hd' => exact (hd hd').elim
  | inputError _ hi' => cases hi.symm.trans hi'
  | noHeader => rfl
  | noPayload _ _ _ hf' | pixels _ _ _ hf' | malformed _ _ _ hf' | sysex _ _ _ hf' | unrecognized _ _ _ hf' =>
    cases hf.symm.trans hf'

/-- With a header buffered and not all of its frame RECV reports INCOMPLETE_PAYLOAD. -/
theorem RecvCase.of_noPayload {s t : State} {hdr : Word} (h : RecvCase s t) (hd : s.dstate ≠ .delivering)
    (hi : s.inErr = false) (hf : s.rxFront = some hdr) (hl : s.rxCount < frameLen hdr) :
    t = (s.clearRx.setHdr hdr).finish .incompletePayload := by
  cases h with
  | refused hd' => exact (hd hd').elim
  | inputError _ hi' => cases hi.symm.trans hi'
  | noHeader _ _ hf' => cases hf.symm.trans hf'
  | noPayload _ _ _ hf' => cases hf.symm.trans hf'; rfl
  | pixels _ _ _ hf' hl' | malformed _ _ _ hf' hl' | sysex _ _ _ hf' hl' | unrecognized _ _ _ hf' hl' =>
    cases hf.symm.trans hf'
    exact (Nat.not_le.2 hl hl').elim

/-- RECV with a whole frame at the front that is no message holds it and reports its error. -/
theorem RecvCase.of_failed_frame {s t : State} {hdr : Word} (h : RecvCase s t) (hd : s.dstate ≠ .delivering)
    (hi : s.inErr = false) (hf : s.rxFront = some hdr) (hl : frameLen hdr ≤ s.rxCount)
    (hv : (hdrTag hdr ≠ tagSpc ∧ hdrTag hdr ≠ tagSysex) ∨ (hdrTag hdr = tagSysex ∧ hdrPayload hdr < 2)) :
    t = (s.clearRx.setHdr hdr).holdError (if hdrTag hdr = 0xFF#8 then .malformed else .unrecognized) := by
  rcases h.of_frame hd hi hf hl with ⟨ht, _⟩ | ⟨ht, _, rfl⟩ | ⟨ht, hp, _⟩ | ⟨_, ht, rfl⟩
  · rcases hv with ⟨h0, _⟩ | ⟨h1, _⟩
    · exact (h0 ht).elim
    · cases ht.symm.trans h1
  · rw [if_pos ht]
  · rcases hv with ⟨_, h1⟩ | ⟨_, hlt⟩
    · exact (h1 ht).elim
    · exact (Nat.not_lt.2 hp hlt).elim
  · rw [if_neg ht]

/-- RECV from a state that has the frame held in `s` at the front, with nothing delivered and no input error latched,
holds that frame and reports its error. -/
theorem execRecv_of_errHeld_front {s u : State} (hs : s.R50) (hd : s.dstate = .errHeld)
    (hu : u.dstate ≠ .delivering) (hi : u.inErr = false) (hb : u.rxbuf = s.rxbuf) :
    execRecv u = .next ((u.clearRx.setHdr s.rxHdr).holdError
      (if hdrTag s.rxHdr = 0xFF#8 then .malformed else .unrecognized)) := by
  obtain ⟨_, hheld, _, hinvalid, _⟩ := hs
  obtain ⟨hfront, hlen⟩ := hheld (by rw [hd]; decide)
  obtain ⟨t, ht⟩ := execRecv_isNext u
  rw [State.rxFront, ← hb] at hfront
  rw [State.rxCount, ← hb] at hlen
  rw [ht, (execRecv_next ht).of_failed_frame hu hi hfront hlen (hinvalid hd)]

/-- Only DONE and SKIP consume. -/
theorem exec_rxbuf {i : Instr} {s t : State} (hi : i.space = .cmd) (hd : i ≠ .done) (hk : i ≠ .skip)
    (e : exec i s = .next t) : t.rxbuf = s.rxbuf := by
  rcases exec_next_cases hi e with ⟨_, h⟩ | ⟨_, _, ⟨hdone, _⟩ | ⟨hskip, _⟩⟩ | ⟨_, _, _, rfl⟩
  · rw [h.frame]
  · exact (hd hdone).elim
  · exact (hk hskip).elim
  · rfl

/-- Four bytes at the front are the header, and the frame is whole iff the rest is as long as the header says. -/
theorem State.front_of_bytes {s : State} {ch tag b2 b3 : Byte} {rest : List Byte}
    (hb : s.rxbuf = ch :: tag :: b2 :: b3 :: rest) :
    s.rxFront = some (headerWord ch tag b2 b3) ∧
      (frameLen (headerWord ch tag b2 b3) ≤ s.rxCount ↔ b2.toNat * 256 + b3.toNat ≤ rest.length) := by
  refine ⟨by rw [State.rxFront, hb]; rfl, ?_⟩
  rw [frameLen, hdrPayload_headerWord, State.rxCount, hb]
  simp only [hdrLen, List.length_cons]
  omega

end Machine

namespace Proofs

open Sys2Proof.Machine Sys2Proof.Claims

/-- Settles O30: DONE releases the delivered frame, which R50 has in RXBUF, and leaves IDLE, where nothing can be read
or asked of a delivered message. -/
theorem doneCommand : Obligations.DoneCommand := by
  refine ⟨fun s hd hl => release_of_held hd hl, fun s hs hd => State.frameLen_le_of_r50 hs (by rw [hd]; decide),
    fun s hd => release_of_not_held hd, fun s t hd e k => ?_, rfl, zeroFieldChecked_plain (by decide)⟩
  have hidle : t.dstate ≠ .delivering := by
    rw [release_dstate e, if_pos hd]
    decide
  have hlength := State.selLength_rx_of_not_delivering hidle
  exact ⟨readItem_of_not_delivering hidle .., readItem_of_not_delivering hidle .., query_of_none hlength _ t,
    query_of_none hlength _ t, query_of_none (State.selChannel_rx_of_not_delivering hidle) _ t⟩

/-- Settles O31: SKIP releases the failed frame. The RECV that reports IO_FAILURE leaves RXBUF, so the next RECV finds
the same frame at the front and fails it again. -/
theorem skipCommand : Obligations.SkipCommand := by
  refine ⟨fun s hd hl => release_of_held hd hl, fun s hs hd => State.frameLen_le_of_r50 hs (by rw [hd]; decide),
    fun s hd => release_of_not_held hd, fun s hs hd hi => ?_, rfl, zeroFieldChecked_plain (by decide)⟩
  obtain ⟨t, hrecv, hcode, hidle, hin, hbuf⟩ : ∃ t, execRecv s = .next t ∧ t.code = .ioFailure ∧
      t.dstate = .idle ∧ t.inErr = false ∧ t.rxbuf = s.rxbuf :=
    ⟨_, execRecv_of_inErr (by rw [hd]; decide) hi, rfl, rfl, rfl, rfl⟩
  have hskip : release .errHeld t = .next (t.finish .badState) := release_of_not_held (by rw [hidle]; decide)
  have hagain := execRecv_of_errHeld_front hs hd (by rw [hidle]; decide) hin hbuf
  exact ⟨t, _, hrecv, hcode, hidle, hskip, hagain, rfl, rfl, rfl⟩

/-- Settles O32: the three outcomes of a read at RX_PIXCNT; the pixels counted there lie within the frame, and a
SystemExclusive message counts none. -/
theorem rdpixCommand : Obligations.RdpixCommand := by
  refine ⟨fun s i hd => readItem_of_not_delivering hd .., fun s i hd hi => readItem_of_le hd hi _,
    fun s i r g b hd hi hr hg hb => ?_, fun s i hs hd hi => ?_, fun s i hs hd ht => ?_,
    fun i hi => decodeCmd_rdpix hi, zeroFieldChecked_index (by decide)⟩
  · have hread := readItem_of_some (v := 0x00#8 ++ r ++ g ++ b) hd hi
    rwa [← State.pixelWord_of_bytes hr hg hb] at hread
  · have hlen : 6 + 3 * i < s.rxbuf.length := (State.items_buffered_of_inv hs hd i).1 hi
    exact ⟨_, _, _, List.getElem?_eq_getElem (by omega), List.getElem?_eq_getElem (by omega),
      List.getElem?_eq_getElem hlen⟩
  · exact readItem_of_le hd (by rw [State.rxPixcnt_of_sysex hs hd ht]; exact Nat.zero_le i) _

/-- Settles O33: the three outcomes of a read at RX_DLEN; the data counted there lies within the frame, and a
SetPixelColors message counts none. -/
theorem rddataCommand : Obligations.RddataCommand := by
  refine ⟨fun s i hd => readItem_of_not_delivering hd .., fun s i hd hi => readItem_of_le hd hi _,
    fun s i b hd hi hb => ?_, fun s i hs hd hi => ?_, fun s i hs hd ht => ?_,
    fun i hi => decodeCmd_rddata hi, zeroFieldChecked_index (by decide)⟩
  · have hread := readItem_of_some (v := b.setWidth 32) hd hi
    rwa [← State.dataWord_of_byte hb] at hread
  · exact ⟨_, List.getElem?_eq_getElem ((State.items_buffered_of_inv hs hd i).2 hi)⟩
  · exact readItem_of_le hd (by rw [State.rxDlen_of_pixels hs hd ht]; exact Nat.zero_le i) _

/-- Settles O26: each clause is the case of RECV its hypotheses leave; a complete frame is told apart by its tag, and
for SystemExclusive by whether its payload holds an id. -/
theorem recvCommand : Obligations.RecvCommand := by
  refine ⟨fun s hd => execRecv_of_delivering hd, fun s hd hi => execRecv_of_inErr hd hi, fun s hd hi hl => ?_,
    fun s ch tag b2 b3 rest len hd hi hb hlen => ?_, fun s t hs hd hi e => ?_,
    fun i s t hi hdone hskip e => exec_rxbuf hi hdone hskip e, rfl, zeroFieldChecked_plain (by decide)⟩
  · obtain ⟨t, e⟩ := execRecv_isNext s
    exact e.trans (congrArg _ ((execRecv_next e).of_noHeader hd hi (headerOf_eq_none.2 hl)))
  · obtain ⟨t, e⟩ := execRecv_isNext s
    obtain ⟨hf, hfl⟩ := State.front_of_bytes hb
    rw [← hlen] at hfl
    refine e.trans ?_
    by_cases hl : rest.length < len
    · rw [if_pos hl, (execRecv_next e).of_noPayload hd hi hf (by omega)]
      rfl
    have hcase := (execRecv_next e).of_frame hd hi hf (hfl.2 (Nat.le_of_not_lt hl))
    rw [hdrTag_headerWord, hdrPayload_headerWord, ← hlen] at hcase
    rw [if_neg hl]
    rcases hcase with ⟨rfl, rfl⟩ | ⟨rfl, hp, rfl⟩ | ⟨rfl, hp, a, b, ha, hb', rfl⟩ | ⟨h0, h1, rfl⟩
    · rfl
    · match len, hp with
      | 0, _ | 1, _ => rfl
    · rw [State.rxByte, hb] at ha hb'
      match len, rest, hp, ha, hb' with
      | n + 2, _ :: _ :: _, _, rfl, rfl => rfl
    · rw [if_neg h0, if_neg h1]
      rfl
  · have herr := execRecv_of_errHeld_front hs hd (by rw [hd]; decide) hi rfl
    cases e.symm.trans herr
    exact ⟨rfl, rfl, rfl⟩

end Proofs

end Sys2Proof

namespace Sys2Proof

namespace Machine

open Sys2Proof.Claims

/-! ## The DSTATEs a command is allowed in (R228) -/

/-- LENGTH, ISVALID and ISBCAST of the TX message, and SEND, are allowed in every DSTATE. -/
theorem DState.mem_all (d : DState) : d ∈ [DState.idle, .delivering, .errHeld] := by
  cases d <;> decide

/-- RECV is not allowed in DELIVERING alone. -/
theorem DState.not_mem_recv_iff {d : DState} : d ∉ [DState.idle, .errHeld] ↔ d = .delivering := by
  cases d <;> decide

/-- In a DSTATE it is not allowed in, a command ends with BAD_STATE and changes CODE alone. -/
theorem exec_of_not_allowed {i : Instr} {s : State} (hi : i.space = .cmd) (h : s.dstate ∉ allowedIn i) :
    exec i s = .next (s.finish .badState) := by
  match i, h with
  | .recv, h => exact execRecv_of_delivering (DState.not_mem_recv_iff.1 h)
  | .done, h | .skip, h => exact release_of_not_held (mt List.mem_singleton.2 h)
  | .rdpix _, h | .rddata _, h => exact readItem_of_not_delivering (mt List.mem_singleton.2 h) ..
  | .length .rx, h | .isvalid .rx, h =>
    exact query_of_none (State.selLength_rx_of_not_delivering (mt List.mem_singleton.2 h)) _ s
  | .isbcast .rx, h =>
    exact query_of_none (State.selChannel_rx_of_not_delivering (mt List.mem_singleton.2 h)) _ s
  | .send, h | .length .tx, h | .isvalid .tx, h | .isbcast .tx, h => exact (h s.dstate.mem_all).elim
  | .frameSetPixelColors _ _, _ | .frameSystemExclusive _ _, _ => cases hi

/-! ## The code a command ends with where it is allowed -/

/-- The TX message is always there to be asked for, the RX message while it is delivered. -/
theorem State.exists_selLength {s : State} {sel : Sel} (h : sel = .rx → s.dstate = .delivering) :
    ∃ n, s.selLength sel = some n := by
  cases sel with
  | tx => exact ⟨_, rfl⟩
  | rx => exact ⟨_, State.selLength_rx_of_delivering (h rfl)⟩

theorem State.exists_selChannel {s : State} {sel : Sel} (h : sel = .rx → s.dstate = .delivering) :
    ∃ ch, s.selChannel sel = some ch := by
  cases sel with
  | tx => exact ⟨_, rfl⟩
  | rx => exact ⟨_, State.selChannel_rx_of_delivering (h rfl)⟩

/-- With no message delivered, RECV never ends in BAD_STATE. -/
theorem RecvCase.code_ne_badState {s t : State} (h : RecvCase s t) (hd : s.dstate ≠ .delivering) :
    t.code ≠ .badState := by
  cases h with
  | refused hn => exact (hd hn).elim
  | inputError | noHeader | noPayload | pixels | malformed | sysex | unrecognized => exact nofun

/-- DONE or SKIP that finds its frame held never ends in BAD_STATE. -/
theorem release_code_ne_badState {held : DState} {s t : State} (hd : s.dstate = held)
    (e : release held s = .next t) : t.code ≠ .badState := by
  rcases release_next e with ⟨_, _, rfl⟩ | ⟨hn, _⟩
  · exact nofun
  · exact (hn hd).elim

/-- A read of a delivered message never ends in BAD_STATE. -/
theorem readItem_code_ne_badState {i count : Nat} {item : Option Word} {s t : State} (hd : s.dstate = .delivering)
    (e : readItem i count item s = .next t) : t.code ≠ .badState := by
  rcases readItem_cases i count item s with ⟨hn, _⟩ | ⟨_, _, e'⟩ | ⟨_, _, _, _, e'⟩ | ⟨_, _, _, e'⟩
  · exact (hn hd).elim
  all_goals cases e'.symm.trans e <;> exact nofun

/-- A query of a message that is there never ends in BAD_STATE. -/
theorem query_code_ne_badState {α : Type} {selected : Option α} {v : α} {f : α → Word} {s t : State}
    (h : selected = some v) (e : query selected f s = .next t) : t.code ≠ .badState := by
  cases (query_of_some h f s).symm.trans e
  exact nofun

/-- SEND's own step gives OVERSIZED or BAD_ADDR, or leaves CODE. -/
theorem execSend_code {s t : State} (e : execSend s = .next t) :
    t.code = .oversized ∨ t.code = .badAddr ∨ t.code = s.code := by
  rcases execSend_cases s with ⟨_, e'⟩ | ⟨_, _, e'⟩ | ⟨_, _, _, _, e'⟩ | ⟨_, _, _, e'⟩ <;> cases e'.symm.trans e
  · exact .inl rfl
  · exact .inr (.inl rfl)
  · exact .inr (.inr rfl)

/-- SEND never ends in BAD_STATE, unless it leaves a CODE that was BAD_STATE. -/
theorem execSend_code_ne_badState {s t : State} (hc : s.code ≠ .badState) (e : execSend s = .next t) :
    t.code ≠ .badState := by
  rcases execSend_code e with h | h | h <;> rw [h]
  · exact nofun
  · exact nofun
  · exact hc

/-- In a DSTATE it is allowed in, a command never ends in BAD_STATE. -/
theorem exec_code_ne_badState {i : Instr} {s t : State} (hi : i.space = .cmd) (h : s.dstate ∈ allowedIn i)
    (hc : i = .send → s.code ≠ .badState) (e : exec i s = .next t) : t.code ≠ .badState := by
  match i, h, e with
  | .recv, h, e => exact (execRecv_next e).code_ne_badState fun hd => DState.not_mem_recv_iff.2 hd h
  | .done, h, e | .skip, h, e => exact release_code_ne_badState (List.mem_singleton.1 h) e
  | .rdpix _, h, e | .rddata _, h, e => exact readItem_code_ne_badState (List.mem_singleton.1 h) e
  | .length sel, h, e | .isvalid sel, h, e =>
    obtain ⟨_, hn⟩ := State.exists_selLength (s := s) (sel := sel) (by rintro rfl; exact List.mem_singleton.1 h)
    exact query_code_ne_badState hn e
  | .isbcast sel, h, e =>
    obtain ⟨_, hch⟩ := State.exists_selChannel (s := s) (sel := sel) (by rintro rfl; exact List.mem_singleton.1 h)
    exact query_code_ne_badState hch e
  | .send, _, e => exact execSend_code_ne_badState (hc rfl) e
  | .frameSetPixelColors _ _, _, _ | .frameSystemExclusive _ _, _, _ => cases hi

/-- SEND's checks, its payload and its step are the same in every DSTATE. -/
theorem execSend_withDstate {s t : State} (d : DState) (e : execSend s = .next t) :
    execSend { s with dstate := d } = .next { t with dstate := d } := by
  rcases execSend_cases s with ⟨hl, e'⟩ | ⟨hl, ha, e'⟩ | ⟨hl, ha, _, hp, e'⟩ | ⟨_, _, _, e'⟩ <;>
    cases e'.symm.trans e
  · exact if_pos hl
  · exact (if_neg (Nat.not_lt.2 hl)).trans (if_pos ha)
  · exact execSend_of_ready hl ha hp

end Machine

namespace Proofs

open Sys2Proof.Machine Sys2Proof.Claims

/-- Settles O52: each command's check of DSTATE is the first thing it does, no other outcome is BAD_STATE, and SEND has
no such check. -/
theorem badStateIffNotAllowed : Obligations.BadStateIffNotAllowed :=
  ⟨fun _ _ hi h => exec_of_not_allowed hi h, fun _ _ _ hi h hc e => exec_code_ne_badState hi h hc e,
    fun _ _ d e => execSend_withDstate d e⟩

end Proofs

end Sys2Proof

namespace Sys2Proof

namespace Machine

open Sys2Proof.Claims

/-! ## What a read gives at power-on (R53, R251) -/

/-- Reading the register found at an offset gives what the table of readings lists there. -/
theorem map_csrRead_csrAt {s : State} {o : Nat} {x : Word} :
    (csrAt o).map s.csrRead = some x ↔ (o, x) ∈ csrValues s := by
  simp only [Option.map_eq_some_iff, csrAt_eq_some, mem_csrValues, eq_comm (a := o)]

/-- STATUS after power-on: OK, IDLE, no resync, no latched input error (R53). -/
theorem State.statusWord_reset : State.reset.statusWord = 0#32 := by decide

/-- The readings after power-on: the three constants, BUFCAP at R8's default, and 0 everywhere else (R53). -/
theorem csrValues_reset :
    csrValues State.reset =
      [(0x00, 0x4F504331#32), (0x04, 0x00001ED2#32), (0x08, 65539#32), (0x0C, 0#32), (0x10, 0#32), (0x14, 0#32),
        (0x18, 0#32), (0x1C, 0#32), (0x20, 0#32), (0x24, 0#32), (0x28, 0#32), (0x30, 0#32), (0x34, 0#32), (0x38, 0#32),
        (0x3C, 0#32), (0x40, 0#32)] := by
  rw [csrValues, State.statusWord_reset]
  rfl

end Machine

namespace Proofs

open Sys2Proof.Machine Sys2Proof.Claims

/-- Settles O45: the statement's list is the table of readings at power-on, and the rest is what `State.reset` sets. -/
theorem powerOnState : Obligations.PowerOnState :=
  ⟨fun _ hp => map_csrRead_csrAt.2 (csrValues_reset ▸ hp), rfl, rfl, rfl, rfl, rfl, Memory.read_nil⟩

end Proofs

end Sys2Proof

namespace Sys2Proof

/-! ## The two encodings are inverse (R92, R97, R98) -/

theorem decodeFrame_mkHeader_spc (ch : Byte) {len : Nat} (hl : len < 65536) :
    decodeFrame (mkHeader ch tagSpc len) = .ok (.frameSetPixelColors ch len) := by
  rw [decodeFrame, hdrTag_mkHeader, if_pos rfl, hdrChan_mkHeader, hdrPayload_mkHeader ch _ hl]

theorem decodeFrame_mkHeader_sysex (ch : Byte) {len : Nat} (hl : len < 65536) :
    decodeFrame (mkHeader ch tagSysex len) = .ok (.frameSystemExclusive ch len) := by
  rw [decodeFrame, hdrTag_mkHeader, if_neg (by decide), if_pos rfl, hdrChan_mkHeader, hdrPayload_mkHeader ch _ hl]

theorem decode_encode {i : Instr} (hi : WellFormed i) : decode i.space (encode i) = .ok i := by
  cases i with
  | recv | done | skip | send => rfl
  | length sel | isvalid sel | isbcast sel => cases sel <;> rfl
  | rdpix k =>
    exact (congrArg decodeCmd (index_append_eq_or k 0x0004#16)).trans (decodeCmd_rdpix (of_decide_eq_true hi))
  | rddata k =>
    exact (congrArg decodeCmd (index_append_eq_or k 0x0005#16)).trans (decodeCmd_rddata (of_decide_eq_true hi))
  | frameSetPixelColors ch len => exact decodeFrame_mkHeader_spc ch (of_decide_eq_true hi)
  | frameSystemExclusive ch len => exact decodeFrame_mkHeader_sysex ch (of_decide_eq_true hi)

/-- The frame a header word opens: its tag says which, and the word is built from the frame's channel and length. -/
theorem decodeFrame_eq_ok {h : Word} {f : Instr} (hf : decodeFrame h = .ok f) :
    ∃ ch len, len < 65536 ∧
      (f = .frameSetPixelColors ch len ∧ h = mkHeader ch tagSpc len ∨
        f = .frameSystemExclusive ch len ∧ h = mkHeader ch tagSysex len) := by
  refine ⟨hdrChan h, hdrPayload h, hdrPayload_lt h, ?_⟩
  unfold decodeFrame at hf
  split at hf
  · rename_i ht
    exact .inl ⟨(Except.ok.inj hf).symm, by rw [← ht, mkHeader_fields]⟩
  split at hf
  · rename_i ht
    exact .inr ⟨(Except.ok.inj hf).symm, by rw [← ht, mkHeader_fields]⟩
  · cases hf

/-- A word whose bits between OPC and IDX are all 0 is its index above its OPC. -/
theorem index_append_of_zero {w : Word} (hz : w &&& 0x0000FF00#32 = 0#32) :
    (BitVec.ofNat 16 (cmdIdx w) ++ (cmdOpc w).setWidth 16 : Word) = w := by
  have hmid := congrArg BitVec.toNat ((field_eq_zero_iff w 8 8).2 hz)
  apply BitVec.eq_of_toNat_eq
  simp only [toNat_append_eq, BitVec.toNat_ofNat, BitVec.toNat_setWidth, cmdIdx, cmdOpc, toNat_field] at hmid ⊢
  omega

/-- Bit 8 above a byte is not shared with it. -/
theorem toNat_selBit_or (sel : Sel) (c : Byte) :
    (selBit sel ||| c.setWidth 32).toNat = (selBit sel).toNat + c.toNat := by
  rw [BitVec.toNat_or, BitVec.toNat_setWidth_of_le (by decide)]
  cases sel with
  | tx => exact (Nat.zero_or _).trans (Nat.zero_add _).symm
  | rx => exact (Nat.two_pow_add_eq_or_of_lt c.isLt 1).symm

/-- SEL is bit 8 (R95). -/
theorem toNat_selBit_cmdSel (w : Word) : (selBit (cmdSel w)).toNat = w.toNat / 2 ^ 8 % 2 * 256 := by
  rw [cmdSel, ← BitVec.testBit_toNat, Nat.testBit_eq_decide_div_mod_eq]
  rcases Nat.mod_two_eq_zero_or_one (w.toNat / 2 ^ 8) with hbit | hbit <;> rw [hbit] <;> rfl

/-- A word whose bits above SEL are all 0 is its SEL and its OPC. -/
theorem selBit_or_of_zero {w : Word} (hz : w &&& 0xFFFFFE00#32 = 0#32) :
    selBit (cmdSel w) ||| (cmdOpc w).setWidth 32 = w := by
  have hhigh := congrArg BitVec.toNat ((field_eq_zero_iff w 9 23).2 hz)
  apply BitVec.eq_of_toNat_eq
  rw [toNat_selBit_or, toNat_selBit_cmdSel]
  simp only [cmdOpc, toNat_field, BitVec.toNat_ofNat] at hhigh ⊢
  omega

/-- A word the CMD decoder accepts is the word of the command it gives: RECV, DONE, SKIP and SEND have 0 above OPC,
RDPIX and RDDATA have 0 between OPC and IDX, and the queries have 0 above SEL. -/
theorem encode_of_decodeCmd {w : Word} {i : Instr} (h : decodeCmd w = .ok i) : WellFormed i ∧ encode i = w := by
  have hidx : cmdIdx w < 65536 := (w.extractLsb' 16 16).isLt
  have hplain := fun hm => (eq_encode_of_decodeCmd (w := w) (i := i) hm h).symm
  unfold decodeCmd at h
  iterate 3 -- RECV, DONE, SKIP
    rcases of_ite_mustBeZero h with ⟨_, _, rfl⟩ | h
    · exact ⟨rfl, hplain rfl⟩
  iterate 2 -- RDPIX, RDDATA
    rcases of_ite_mustBeZero h with ⟨hopc, hz, rfl⟩ | h
    · have hword := index_append_of_zero hz
      rw [hopc] at hword
      exact ⟨decide_eq_true hidx, hword⟩
  rcases of_ite_mustBeZero h with ⟨_, _, rfl⟩ | h
  · exact ⟨rfl, hplain rfl⟩
  iterate 3 -- the queries
    rcases of_ite_mustBeZero h with ⟨hopc, hz, rfl⟩ | h
    · have hword := selBit_or_of_zero hz
      rw [hopc] at hword
      exact ⟨rfl, hword⟩
  cases h

namespace Proofs

/-- Settles O1: each instruction's word has its fields at their places, where its decoder finds them. -/
theorem decodeOfEncode : Obligations.DecodeOfEncode := fun _ hi => decode_encode hi

/-- Settles O2: the CMD decoder by the rows of its map, the header decoder by its two tags. -/
theorem encodeOfDecode : Obligations.EncodeOfDecode := by
  intro sp w i h
  cases sp with
  | cmd => exact ⟨decodeCmd_space h, encode_of_decodeCmd h⟩
  | frame =>
    obtain ⟨ch, len, hl, ⟨rfl, rfl⟩ | ⟨rfl, rfl⟩⟩ := decodeFrame_eq_ok h
    · exact ⟨rfl, decide_eq_true hl, rfl⟩
    · exact ⟨rfl, decide_eq_true hl, rfl⟩

/-- Settles O5: each word is decoded. -/
theorem specWordsDecode : Obligations.SpecWordsDecode :=
  ⟨rfl, rfl, rfl, rfl, rfl, rfl, rfl, rfl, rfl, rfl⟩

end Proofs

end Sys2Proof

namespace Sys2Proof

theorem frameLen_mkHeader (ch tag : Byte) {len : Nat} (hl : len < 65536) : frameLen (mkHeader ch tag len) = 4 + len :=
  congrArg (4 + ·) (hdrPayload_mkHeader ch tag hl)

/-- The longest frame has 65539 bytes (R94). -/
theorem frameLen_bounds (h : Word) : 4 ≤ frameLen h ∧ frameLen h ≤ 65539 := by
  have hpay := hdrPayload_lt h
  simp only [frameLen, hdrLen]
  omega

namespace Machine

open Sys2Proof.Claims

/-! ## A frame's own meaning (log entry 3) -/

/-- Receive attempts whose parses agree on the cleared state agree. -/
theorem receive_congr {p q : State → Result} {s : State} (h : p s.clearRx = q s.clearRx) :
    receive p s = receive q s := by
  rw [receive, receive, h]

/-- RECV with a SetPixelColors header at the front runs that frame. -/
theorem parseFront_of_pixels {s : State} {h : Word} {ch : Byte} {len : Nat} (hf : s.rxFront = some h)
    (hd : decodeFrame h = .ok (.frameSetPixelColors ch len)) : parseFront s = withHeader h (parsePixels len) s := by
  simp only [parseFront, hf, hd]

/-- RECV with a SystemExclusive header at the front runs that frame. -/
theorem parseFront_of_sysex {s : State} {h : Word} {ch : Byte} {len : Nat} (hf : s.rxFront = some h)
    (hd : decodeFrame h = .ok (.frameSystemExclusive ch len)) : parseFront s = withHeader h (parseSysex len) s := by
  simp only [parseFront, hf, hd]

/-- RECV with any other header at the front discards what it announces. -/
theorem parseFront_of_unknown {s : State} {h : Word} {e : Illegal} (hf : s.rxFront = some h)
    (hd : decodeFrame h = .error e) : parseFront s = withHeader h parseUnknown s := by
  simp only [parseFront, hf, hd]

/-- RECV is the meaning of the frame at the front of RXBUF. -/
theorem execRecv_of_front {s : State} {h : Word} {f : Instr} (hf : s.rxFront = some h) (hd : decodeFrame h = .ok f) :
    execRecv s = exec f s := by
  obtain ⟨ch, len, hl, ⟨rfl, rfl⟩ | ⟨rfl, rfl⟩⟩ := decodeFrame_eq_ok hd
  · exact receive_congr (parseFront_of_pixels hf hd)
  · exact receive_congr (parseFront_of_sysex hf hd)

theorem receive_of_delivering {s : State} (hd : s.dstate = .delivering) (parse : State → Result) :
    receive parse s = .next (s.finish .badState) := if_pos hd

theorem receive_of_inErr {s : State} (hd : s.dstate ≠ .delivering) (hi : s.inErr = true) (parse : State → Result) :
    receive parse s = .next (s.clearRx.clearInErr.finish .ioFailure) :=
  (if_neg hd).trans (if_pos hi)

/-- A receive attempt at a frame that is not all buffered waits for the rest (R180). -/
theorem receive_withHeader_of_short {s : State} {h : Word} (hd : s.dstate ≠ .delivering) (hi : s.inErr = false)
    (hl : s.rxCount < frameLen h) (frame : State → Result) :
    receive (withHeader h frame) s = .next ((s.clearRx.setHdr h).finish .incompletePayload) :=
  (receive_of_ready _ hd hi).trans (if_pos hl)

/-- A receive attempt at a whole frame runs the frame. -/
theorem receive_withHeader_of_whole {s : State} {h : Word} (hd : s.dstate ≠ .delivering) (hi : s.inErr = false)
    (hl : frameLen h ≤ s.rxCount) (frame : State → Result) :
    receive (withHeader h frame) s = frame (s.clearRx.setHdr h) :=
  (receive_of_ready _ hd hi).trans (if_neg (Nat.not_lt.2 hl))

/-- The ways a frame's receive attempt ends in a next state. -/
theorem receive_withHeader_next {h : Word} {frame : State → Result} {s t : State}
    (e : receive (withHeader h frame) s = .next t) :
    t = s.finish .badState ∨ t = s.clearRx.clearInErr.finish .ioFailure ∨
    t = (s.clearRx.setHdr h).finish .incompletePayload ∨ frame (s.clearRx.setHdr h) = .next t := by
  rcases receive_cases (withHeader h frame) s with ⟨_, e'⟩ | ⟨_, _, e'⟩ | ⟨_, _, e'⟩ <;> rw [e'] at e
  · exact .inl (Host.Outcome.next.inj e).symm
  · exact .inr (.inl (Host.Outcome.next.inj e).symm)
  · rcases withHeader_next e with ⟨_, rfl⟩ | ⟨_, e⟩
    · exact .inr (.inr (.inl rfl))
    · exact .inr (.inr (.inr e))

theorem parseSysex_of_short {s : State} {len : Nat} (hl : len < 2) :
    parseSysex len s = .next (s.holdError .malformed) := if_pos hl

theorem parseSysex_of_id {s : State} {len : Nat} {a b : Byte} (hl : 2 ≤ len) (ha : s.rxByte 4 = some a)
    (hb : s.rxByte 5 = some b) : parseSysex len s = .next (s.presentSysex (a ++ b) (BitVec.ofNat 16 (len - 2))) := by
  simp only [parseSysex, sysidBytes, if_neg (Nat.not_lt.2 hl), ha, hb]

/-- A whole SystemExclusive frame that ends in a next state is held as failed, or presented. -/
theorem parseSysex_next {len : Nat} {s t : State} (e : parseSysex len s = .next t) :
    t = s.holdError .malformed ∨ ∃ id n, t = s.presentSysex id n := by
  rcases parseSysex_cases len s with ⟨_, e'⟩ | ⟨_, _, _, _, _, e'⟩ | ⟨_, _, e'⟩ <;> cases e'.symm.trans e
  · exact .inl rfl
  · exact .inr ⟨_, _, rfl⟩

/-- DONE of a message whose header announces `len` payload bytes consumes its frame. -/
theorem execDone_of_mkHeader {s : State} {ch tag : Byte} {len : Nat} (hd : s.dstate = .delivering)
    (hh : s.rxHdr = mkHeader ch tag len) (hl : len < 65536) (hb : 4 + len ≤ s.rxCount) :
    execDone s = .next (({ s with rxbuf := s.rxbuf.drop (4 + len) } : State).clearRx.finish .ok) := by
  have hlen : frameLen s.rxHdr = 4 + len := hh ▸ frameLen_mkHeader ch tag hl
  rw [← hlen] at hb ⊢
  exact release_of_held hd hb

/-! ## What RECV reads and writes (R185) -/

/-- RECV with a whole frame at the front runs the parse of that frame. -/
theorem execRecv_of_whole {s : State} {h : Word} {frame : State → Result} (hd : s.dstate ≠ .delivering)
    (hi : s.inErr = false) (hl : frameLen h ≤ s.rxCount) (hp : parseFront s.clearRx = withHeader h frame s.clearRx) :
    execRecv s = frame (s.clearRx.setHdr h) :=
  (receive_congr hp).trans (receive_withHeader_of_whole hd hi hl frame)

/-- Each of the cases of RECV is what RECV does. -/
theorem RecvCase.execRecv_eq {s t : State} (h : RecvCase s t) : execRecv s = .next t := by
  have hsysex : ∀ {h : Word}, hdrTag h = tagSysex →
      decodeFrame h = .ok (.frameSystemExclusive (hdrChan h) (hdrPayload h)) := fun ht =>
    (if_neg (by rw [ht]; decide)).trans (if_pos ht)
  cases h with
  | refused hd => exact execRecv_of_delivering hd
  | inputError hd hi => exact execRecv_of_inErr hd hi
  | noHeader hd hi hf =>
    obtain ⟨u, e⟩ := execRecv_isNext s
    rw [e, (execRecv_next e).of_noHeader hd hi hf]
  | noPayload hd hi hdr hf hl =>
    obtain ⟨u, e⟩ := execRecv_isNext s
    rw [e, (execRecv_next e).of_noPayload hd hi hf hl]
  | pixels hd hi hdr hf hl ht => exact execRecv_of_whole hd hi hl (parseFront_of_pixels hf (if_pos ht))
  | sysex hd hi hdr hf hl ht hp a b ha hb =>
    exact (execRecv_of_whole hd hi hl (parseFront_of_sysex hf (hsysex ht))).trans (parseSysex_of_id hp ha hb)
  | malformed hd hi hdr hf hl ht hp =>
    exact (execRecv_of_whole hd hi hl (parseFront_of_sysex hf (hsysex ht))).trans (parseSysex_of_short hp)
  | unrecognized hd hi hdr hf hl h0 h1 =>
    exact execRecv_of_whole hd hi hl (parseFront_of_unknown hf ((if_neg h0).trans (if_neg h1)))

/-- `s` with the registers RECV writes as `t` has them. -/
def State.withRecvOf (s t : State) : State :=
  { s with
    code := t.code, dstate := t.dstate, inErr := t.inErr, rxHdr := t.rxHdr, rxPixcnt := t.rxPixcnt
    rxSysid := t.rxSysid, rxDlen := t.rxDlen }

/-- A state with the same input-error latch and the same bytes, and no message delivered, takes the same case of RECV,
with the same registers written. -/
theorem RecvCase.congr {s s' t : State} (h : RecvCase s t) (hd : s.dstate ≠ .delivering)
    (hd' : s'.dstate ≠ .delivering) (hi : s'.inErr = s.inErr) (hb : s'.rxbuf = s.rxbuf) :
    RecvCase s' (s'.withRecvOf t) := by
  cases s
  cases s'
  cases hi
  cases hb
  cases h with
  | refused hd'' => exact (hd hd'').elim
  | inputError _ hin => exact .inputError hd' hin
  | noHeader _ hin hf => exact .noHeader hd' hin hf
  | noPayload _ hin hdr hf hl => exact .noPayload hd' hin hdr hf hl
  | pixels _ hin hdr hf hl ht => exact .pixels hd' hin hdr hf hl ht
  | malformed _ hin hdr hf hl ht hp => exact .malformed hd' hin hdr hf hl ht hp
  | sysex _ hin hdr hf hl ht hp a b ha hb => exact .sysex hd' hin hdr hf hl ht hp a b ha hb
  | unrecognized _ hin hdr hf hl h0 h1 => exact .unrecognized hd' hin hdr hf hl h0 h1

/-- RECV of a state with the same input-error latch and the same bytes writes the same registers. -/
theorem execRecv_congr {s s' t : State} (hd : s.dstate ≠ .delivering) (hd' : s'.dstate ≠ .delivering)
    (hi : s'.inErr = s.inErr) (hb : s'.rxbuf = s.rxbuf) (e : execRecv s = .next t) :
    execRecv s' = .next (s'.withRecvOf t) :=
  ((execRecv_next e).congr hd hd' hi hb).execRecv_eq

/-- While the frame at the front is not all there, RECV reports it incomplete and holds nothing. -/
theorem RecvCase.of_incomplete {s t : State} (h : RecvCase s t) (hd : s.dstate ≠ .delivering) (hi : s.inErr = false)
    (hl : ∀ hdr, s.rxFront = some hdr → s.rxCount < frameLen hdr) :
    (t.code = .incompleteHeader ∨ t.code = .incompletePayload) ∧ t.rxbuf = s.rxbuf ∧ t.dstate = .idle := by
  cases hf : s.rxFront with
  | none =>
    rw [h.of_noHeader hd hi hf]
    exact ⟨.inl rfl, rfl, rfl⟩
  | some hdr =>
    rw [h.of_noPayload hd hi hf (hl hdr hf)]
    exact ⟨.inr rfl, rfl, rfl⟩

/-- A RECV that was incomplete, then more bytes, then RECV, is RECV of all the bytes: the first one left no trace but
registers that the second writes. -/
theorem execRecv_after_incomplete {s t : State} (bs : List Byte) (hd : s.dstate ≠ .delivering)
    (e : execRecv s = .next t) (hc : t.code = .incompleteHeader ∨ t.code = .incompletePayload) :
    execRecv { t with rxbuf := t.rxbuf ++ bs } = execRecv { s with rxbuf := s.rxbuf ++ bs } := by
  have hcase := execRecv_next e
  have hframe : t = s.withRecvOf t := hcase.frame
  have hin : t.inErr = s.inErr := by
    rcases hcase.inErr with ⟨_, hin⟩ | ⟨hio, _⟩
    · exact hin
    · rw [hio] at hc
      exact hc.elim nofun nofun
  have hbuf : t.rxbuf ++ bs = s.rxbuf ++ bs := by rw [hframe]; rfl
  have hidle : t.dstate ≠ .delivering := by
    rcases hcase.of_not_delivering hd with ⟨hdel, _⟩ | ⟨_, hst⟩ | ⟨_, hst⟩
    · rw [hdel] at hc
      exact hc.elim nofun nofun
    all_goals rw [hst]; decide
  obtain ⟨u, eu⟩ := execRecv_isNext { s with rxbuf := s.rxbuf ++ bs }
  have hagain := execRecv_congr (s := { s with rxbuf := s.rxbuf ++ bs }) (s' := { t with rxbuf := t.rxbuf ++ bs })
    hd hidle hin hbuf eu
  have hsame : ({ t with rxbuf := t.rxbuf ++ bs } : State).withRecvOf u =
      ({ s with rxbuf := s.rxbuf ++ bs } : State).withRecvOf u := by
    rw [hframe]
    rfl
  rw [hagain, eu, hsame]
  exact congrArg _ (execRecv_next eu).frame.symm

/-! ## A full RXBUF (R79, R80) -/

/-- The bytes of a full RXBUF begin with a whole frame, as BUF_CAP holds the longest (R8). -/
theorem State.front_of_full {s : State} (hc : configRefusal s.cfg = none) (hfull : s.rxCount = s.cfg.bufCap) :
    ∃ h, s.rxFront = some h ∧ frameLen h ≤ s.rxCount := by
  have hcap := bufCap_of_configRefusal hc
  cases hf : s.rxFront with
  | none =>
    have hshort : s.rxCount < 4 := headerOf_eq_none.1 hf
    omega
  | some h => exact ⟨h, rfl, (frameLen_bounds h).2.trans (by omega)⟩

/-- DONE or SKIP, in the DSTATE it is for, makes RXBUF shorter. -/
theorem release_frees {held : DState} {s t : State} (hd : s.dstate = held) (e : release held s = .next t) :
    t.code = .ok ∧ t.rxCount < s.rxCount ∧ t.cfg = s.cfg := by
  rcases release_next e with ⟨_, hl, rfl⟩ | ⟨hn, _⟩
  · have hpos := (frameLen_bounds s.rxHdr).1
    have hdrop : (s.rxbuf.drop (frameLen s.rxHdr)).length = s.rxCount - frameLen s.rxHdr := List.length_drop
    exact ⟨rfl, hdrop.trans_lt (by omega), rfl⟩
  · exact (hn hd).elim

/-! ## The frames of the decoder's commands -/

/-- With only the registers RECV writes changed, the surroundings are as before. -/
theorem surroundingsKept_withRecvOf (s t : State) : SurroundingsKept s (s.withRecvOf t) :=
  ⟨fun _ => rfl, rfl, rfl, rfl, rfl, rfl, rfl, rfl, rfl, rfl, rfl, rfl, rfl, rfl⟩

/-- A frame's receive attempt writes the registers RECV writes, if the frame itself does. -/
theorem receive_withHeader_frame {h : Word} {frame : State → Result} {s t : State}
    (hframe : ∀ {u v : State}, frame u = .next v → v = u.withRecvOf v)
    (e : receive (withHeader h frame) s = .next t) : t = s.withRecvOf t := by
  rcases receive_withHeader_next e with rfl | rfl | rfl | e
  · rfl
  · rfl
  · rfl
  · have hkept := hframe e
    exact hkept

theorem parsePixels_frame {len : Nat} {s t : State} (e : parsePixels len s = .next t) : t = s.withRecvOf t := by
  cases e
  rfl

theorem parseSysex_frame {len : Nat} {s t : State} (e : parseSysex len s = .next t) : t = s.withRecvOf t := by
  rcases parseSysex_next e with rfl | ⟨_, _, rfl⟩ <;> rfl

/-- DONE and SKIP remove bytes at the front of RXBUF, and besides write CODE, DSTATE and the RX registers alone. -/
theorem release_frame {held : DState} {s t : State} (e : release held s = .next t) :
    t = { s.withRecvOf t with inErr := s.inErr, rxbuf := t.rxbuf } ∧ t.rxbuf <:+ s.rxbuf := by
  rcases release_next e with ⟨_, _, rfl⟩ | ⟨_, rfl⟩
  · exact ⟨rfl, List.drop_suffix _ _⟩
  · exact ⟨rfl, List.suffix_rfl⟩

end Machine

namespace Proofs

open Sys2Proof.Machine Sys2Proof.Claims

/-- Settles O36: RECV presents the message, and DONE consumes as many bytes as its frame has. -/
theorem recvDeliversTheEncodedMessage : Obligations.RecvDeliversTheEncodedMessage := by
  intro s m rest hl hd hi hb
  obtain ⟨t, e⟩ := execRecv_isNext s
  have hcase := execRecv_next e
  obtain ⟨hcode, hdel, hhdr, hmsg⟩ := hcase.of_encode hd hi hl hb
  have hbuf : t.rxbuf = s.rxbuf := by rw [hcase.frame]
  have hlen := m.length_encode
  have hdone := execDone_of_mkHeader hdel hhdr (Nat.lt_succ_of_le hl) (by
    rw [State.rxCount, hbuf, hb, List.length_append, hlen]
    exact Nat.le_add_right _ _)
  rw [hbuf, hb, ← hlen, List.drop_left] at hdone
  exact ⟨t, e, hcode, hdel, hmsg, hbuf, hdone⟩

/-- Settles O8: the front of RXBUF is all that tells RECV which frame to run. -/
theorem recvRunsFrontFrame : Obligations.RecvRunsFrontFrame := by
  intro s f hf
  unfold decodeFrameBytes at hf
  split at hf
  · rename_i h hfront
    exact execRecv_of_front hfront hf
  · cases hf

/-- Settles O27: the whole frame is presented; its pixels are counted by RX_PIXCNT and read from where they stand, and
RX_HDR announces the bytes DONE consumes. -/
theorem setPixelColorsFrame : Obligations.SetPixelColorsFrame := by
  intro s ch len hl hd hi hb
  have hwhole : frameLen (mkHeader ch tagSpc len) ≤ s.rxCount := by rwa [frameLen_mkHeader ch _ hl]
  have hcount : (BitVec.ofNat 16 (len / 3)).toNat = len / 3 := Nat.mod_eq_of_lt (by omega)
  refine ⟨_, receive_withHeader_of_whole hd hi hwhole _, rfl, hcount, fun i r g b hlt hr hg hb => ?_, ?_⟩
  · obtain ⟨_, _, hread, _⟩ := rdpixCommand
    exact hread _ i r g b rfl (hlt.trans_eq hcount.symm) hr hg hb
  · exact execDone_of_mkHeader rfl rfl hl hb

/-- Settles O28: the whole frame is held as failed where its payload holds no id, and presented otherwise; its data is
counted by RX_DLEN, and RX_HDR announces the bytes DONE consumes. -/
theorem systemExclusiveFrame : Obligations.SystemExclusiveFrame := by
  intro s ch len hl hd hi hb
  have hwhole : frameLen (mkHeader ch tagSysex len) ≤ s.rxCount := by rwa [frameLen_mkHeader ch _ hl]
  have hrun := receive_withHeader_of_whole hd hi hwhole (parseSysex len)
  refine ⟨fun hshort => hrun.trans (parseSysex_of_short hshort), fun id0 id1 hid h0 h1 => ?_⟩
  have hcount : (BitVec.ofNat 16 (len - 2)).toNat = len - 2 := Nat.mod_eq_of_lt (by omega)
  refine ⟨_, hrun.trans (parseSysex_of_id hid h0 h1), rfl, hcount, fun i b hlt hb => ?_, ?_⟩
  · obtain ⟨_, _, hread, _⟩ := rddataCommand
    exact hread _ i b rfl (hlt.trans_eq hcount.symm) hb
  · exact execDone_of_mkHeader rfl rfl hl hb

/-- Settles O29: both frames are receive attempts, and only a whole frame gets past the attempt's own checks. -/
theorem framesWaitOrReport : Obligations.FramesWaitOrReport := by
  intro s f ch tag len hl hf
  obtain ⟨frame, hexec⟩ : ∃ frame, exec f s = receive (withHeader (mkHeader ch tag len) frame) s := by
    rcases hf with ⟨rfl, rfl⟩ | ⟨rfl, rfl⟩ <;> exact ⟨_, rfl⟩
  rw [hexec]
  refine ⟨fun hd => receive_of_delivering hd _, fun hd hi => receive_of_inErr hd hi _, fun hd hi hshort => ?_⟩
  rw [← frameLen_mkHeader ch tag hl] at hshort
  exact receive_withHeader_of_short hd hi hshort frame

/-- Settles O34: RECV's cases are told apart by DSTATE, INERR and the bytes alone, and an incomplete RECV leaves IDLE
with the latch and the bytes as they were. -/
theorem recvIndependentOfChunking : Obligations.RecvIndependentOfChunking := by
  refine ⟨fun s s' t hd hd' hi hb e => execRecv_congr hd hd' hi.symm hb.symm e, fun s hd hi hl => ?_,
    fun s t bs hd _ e hc => execRecv_after_incomplete bs hd e hc⟩
  obtain ⟨t, e⟩ := execRecv_isNext s
  exact ⟨t, e, (execRecv_next e).of_incomplete hd hi hl⟩

/-- Settles O35: a full RXBUF begins with a whole frame, so RECV presents it or holds it, and a frame is not empty. -/
theorem fullBufferHoldsAFrame : Obligations.FullBufferHoldsAFrame := by
  intro s hc hfull hd
  obtain ⟨t, e⟩ := execRecv_isNext s
  have hcase := execRecv_next e
  have hframe : t = s.withRecvOf t := hcase.frame
  have hbuf : t.rxbuf = s.rxbuf := by rw [hframe]; rfl
  have hcfg : t.cfg = s.cfg := by rw [hframe]; rfl
  refine ⟨t, e, fun hi => ?_, fun hi => ?_, fun u hu => ?_⟩
  · cases (execRecv_of_inErr hd hi).symm.trans e
    exact ⟨rfl, rfl, rfl, nofun⟩
  · obtain ⟨h, hf, hl⟩ := State.front_of_full hc hfull
    rcases hcase.of_frame hd hi hf hl with ⟨_, rfl⟩ | ⟨_, _, rfl⟩ | ⟨_, _, _, _, _, _, rfl⟩ | ⟨_, _, rfl⟩
    · exact .inl rfl
    · exact .inr (.inl rfl)
    · exact .inl rfl
    · exact .inr (.inr rfl)
  · have hfree : u.code = .ok ∧ u.rxCount < t.rxCount ∧ u.cfg = t.cfg := by
      rcases hu with ⟨hdel, eu⟩ | ⟨herr, eu⟩
      · exact release_frees hdel eu
      · exact release_frees herr eu
    obtain ⟨hok, hless, hkept⟩ := hfree
    refine ⟨hok, ?_⟩
    rw [hkept, hcfg, ← hfull, ← hbuf]
    exact hless

/-- Settles O38: RECV and the frames write the same seven registers, DONE and SKIP besides drop the front of RXBUF. -/
theorem decoderCommandsFrame : Obligations.DecoderCommandsFrame := by
  intro i s t e
  have hrecv : t = s.withRecvOf t → t = s.withRecvOf t ∧ SurroundingsKept s t := fun h =>
    ⟨h, h ▸ surroundingsKept_withRecvOf s t⟩
  cases i with
  | recv => exact hrecv (execRecv_next e).frame
  | frameSetPixelColors ch len => exact hrecv (receive_withHeader_frame parsePixels_frame e)
  | frameSystemExclusive ch len => exact hrecv (receive_withHeader_frame parseSysex_frame e)
  | done | skip =>
    obtain ⟨hframe, hbuf⟩ := release_frame e
    refine ⟨hframe, hbuf, ?_⟩
    rw [hframe]
    exact surroundingsKept_withRecvOf s t
  | rdpix | rddata | send | length | isvalid | isbcast => trivial

end Proofs

end Sys2Proof

namespace Sys2Proof

namespace Machine

open Sys2Proof.Claims

/-! ## The queries answer the message value (R125 to R129) -/

/-- The RX registers describe the RX message (R124). -/
theorem State.rx_of_rxMessage {s : State} {m : Message} (h : s.rxMessage = some m) :
    s.dstate = .delivering ∧ hdrChan s.rxHdr = m.channel ∧ s.rxLength = m.length := by
  unfold State.rxMessage at h
  split at h
  case isFalse => cases h
  rename_i hd
  refine ⟨hd, ?_⟩
  split at h <;> rename_i ht <;> split at h <;> cases h <;> rename_i hread
  · obtain ⟨hn, _⟩ := pixelsFrom_bytes.1 hread
    exact ⟨rfl, (if_pos ht).trans (congrArg (3 * ·) hn.symm)⟩
  · obtain ⟨hn, _⟩ := bytesFrom_eq_some.1 hread
    exact ⟨rfl, (if_neg ht).trans (congrArg (2 + ·) hn.symm)⟩

/-- The three queries of a message answer from its length and its channel. -/
theorem queries_of_selected {s : State} {sel : Sel} {n : Nat} {ch : Byte} (hn : s.selLength sel = some n)
    (hch : s.selChannel sel = some ch) :
    execLength sel s = .next (s.answer (BitVec.ofNat 32 n)) ∧
    execIsvalid sel s = .next (s.answer (if n ≤ 65535 then 1#32 else 0#32)) ∧
    execIsbcast sel s = .next (s.answer (if ch = 0#8 then 1#32 else 0#32)) :=
  ⟨query_of_some hn _ s, execIsvalid_of_some hn, execIsbcast_of_some hch⟩

/-! ## SEND's checks (R146, R149) -/

/-- The payload is formed where every TXMEM byte of it is written. -/
theorem State.exists_txPayload {s : State} (h : ∀ j < s.txMemBytes, s.txmem.read (s.txBase.toNat + j) ≠ none) :
    ∃ p, s.txPayload = some p := by
  refine Option.ne_none_iff_exists'.1 fun hnone => ?_
  obtain ⟨j, hj, hread⟩ := State.txPayload_eq_none.1 hnone
  exact h j hj hread

theorem execSend_of_oversized {s : State} (hl : 65535 < s.txLength) : execSend s = .next (s.finish .oversized) :=
  if_pos hl

theorem execSend_of_badAddr {s : State} (hl : s.txLength ≤ 65535)
    (hr : s.cfg.txmemSize < s.txBase.toNat + s.txMemBytes) : execSend s = .next (s.finish .badAddr) :=
  (if_neg (Nat.not_lt.2 hl)).trans (if_pos hr)

theorem execSend_of_unwritten {s : State} (hl : s.txLength ≤ 65535)
    (hr : s.txBase.toNat + s.txMemBytes ≤ s.cfg.txmemSize) (hp : s.txPayload = none) :
    execSend s = .fault .uninitTxmem := by
  refine (if_neg (Nat.not_lt.2 hl)).trans ((if_neg (Nat.not_lt.2 hr)).trans ?_)
  rw [hp]

/-! ## A SEND in flight (R146, R147) -/

/-- While a SEND is in flight under the invariant, a transaction is outstanding. -/
theorem State.exists_outstanding {s : State} (hs : s.sendReady) (he : s.ephase ≠ .idle) :
    ∃ x, s.outstanding = some x := by
  obtain ⟨hready, _⟩ := hs
  obtain ⟨_, _, hpay⟩ := hready he
  refine Option.ne_none_iff_exists'.1 fun hnone => ?_
  rcases State.outstanding_eq_none hnone with hidle | ⟨_, hp⟩
  · exact he hidle
  · rw [hp] at hpay
    cases hpay

/-- A sink turn of a SEND in flight, with an answer to come, that ends in a next state answers the outstanding
transaction. -/
theorem step_sink_next {s t : State} {a : SinkAnswer} {as : List SinkAnswer} {ts : List Turn}
    (h : SinkGives s a as ts) (he : s.ephase ≠ .idle) (e : step s = .next t) :
    ∃ x, s.outstanding = some x ∧ t = sinkAnswers x a { s with turns := ts, sink := as } := by
  obtain ⟨hturn, hm⟩ := h
  obtain ⟨hc, ht⟩ := hturn
  cases hx : s.outstanding with
  | some x => exact ⟨x, rfl, Host.Outcome.next.inj (e.symm.trans (step_sink hc ht hx hm))⟩
  | none =>
    have hx' : ({ s with turns := ts } : State).outstanding = none := hx
    rw [step_of_sinkTurn ⟨hc, ht⟩, sinkTurn, if_neg he, hx'] at e
    cases e

/-- A SEND in flight whose transaction has no answer to come stays as it is (R141). -/
theorem step_sink_waits {s : State} {x : SinkTxn} {ts : List Turn} (h : TurnOf s .sink ts)
    (hx : s.outstanding = some x) (hm : s.sink = []) : step s = .next { s with turns := ts } := by
  have he : s.ephase ≠ .idle := by
    intro he
    rw [State.outstanding, he] at hx
    cases hx
  have hx' : ({ s with turns := ts } : State).outstanding = some x := hx
  rw [step_of_sinkTurn h, sinkTurn, if_neg he, hx']
  simp only [hm]

/-- SEND reads neither CODE nor the sink log, and writes CODE only where it ends at once. -/
theorem execSend_withHistory {s u : State} (c : Code) (log : List SinkEntry) (he : s.ephase = .idle)
    (e : execSend s = .next u) :
    execSend { s with code := c, sinkLog := log } =
      .next { u with code := if u.ephase = .w1 then c else u.code, sinkLog := log } := by
  have hends : ∀ {r : Code}, (s.finish r).ephase ≠ .w1 := by
    intro r hw
    exact nomatch he.symm.trans hw
  rcases execSend_cases s with ⟨hl, e'⟩ | ⟨hl, hr, e'⟩ | ⟨hl, hr, p, hp, e'⟩ | ⟨_, _, _, e'⟩ <;>
    cases e'.symm.trans e
  · rw [if_neg hends]
    exact execSend_of_oversized hl
  · rw [if_neg hends]
    exact execSend_of_badAddr hl hr
  · rw [if_pos (State.setPhase_ephase ..)]
    exact execSend_of_ready hl hr hp

/-- A step that is not reset leaves the message of a SEND in flight and the host's moves. -/
theorem StepCase.keeps_message {s t : State} (h : StepCase s t) (he : s.ephase ≠ .idle)
    (hreset : ∀ k ts, s.turns ≠ .reset k :: ts) :
    t.txChan = s.txChan ∧ t.txKind = s.txKind ∧ t.txCount = s.txCount ∧ t.txSysid = s.txSysid ∧
      t.txBase = s.txBase ∧ t.txmem = s.txmem ∧ t.txMessage = s.txMessage ∧ t.host = s.host := by
  cases h with
  | command _ _ _ _ _ _ hidle | illegal _ _ _ _ _ hidle | store _ _ _ _ _ _ _ hidle | load _ _ _ _ _ _ hidle
  | txw _ _ _ _ _ hidle => exact (he hidle).elim
  | reset k ts h => exact (hreset k ts h).elim
  | sink x a as ts =>
    obtain ⟨_, _, _, e⟩ := sinkAnswers_frame x a { s with turns := ts, sink := as }
    rw [e]
    exact ⟨rfl, rfl, rfl, rfl, rfl, rfl, rfl, rfl⟩
  | quiet | passed | push | inputError => exact ⟨rfl, rfl, rfl, rfl, rfl, rfl, rfl, rfl⟩

end Machine

namespace Proofs

open Sys2Proof.Machine Sys2Proof.Claims

/-- Settles O12: LENGTH, ISVALID and ISBCAST select the length and the channel of the message the registers describe. -/
theorem queriesAnswerTheMessage : Obligations.QueriesAnswerTheMessage := by
  intro s sel m hm
  cases sel with
  | tx =>
    obtain ⟨hch, _⟩ := State.tx_of_txMessage hm
    exact queries_of_selected (congrArg some (State.txLength_of_txMessage hm)) (congrArg some hch)
  | rx =>
    obtain ⟨hd, hch, hl⟩ := State.rx_of_rxMessage hm
    exact queries_of_selected ((State.selLength_rx_of_delivering hd).trans (congrArg some hl))
      ((State.selChannel_rx_of_delivering hd).trans (congrArg some hch))

/-- Settles O13: the payload of a message that is all written is formed, so SEND passes its checks. -/
theorem sendStartsFirstWrite : Obligations.SendStartsFirstWrite := by
  intro s hl hr hw
  obtain ⟨p, hp⟩ := State.exists_txPayload hw
  exact execSend_of_ready hl hr hp

/-- Settles O14: each check is made where those before it pass. -/
theorem sendChecksInOrder : Obligations.SendChecksInOrder := by
  rintro s n m rfl rfl
  refine ⟨zeroFieldChecked_plain (by decide), fun hl => execSend_of_oversized hl,
    fun hl hr => execSend_of_badAddr hl hr, fun hl hr hw => ?_⟩
  exact execSend_of_unwritten hl hr (State.txPayload_eq_none.2 hw)

/-- Settles O15: EPHASE names the transaction and, after the answer `ok`, the next phase; the answer `fail` ends every
phase alike. -/
theorem sinkAnswerRunsThePhase : Obligations.SinkAnswerRunsThePhase := by
  refine ⟨fun s as ts h => ?_, fun s k as ts x h hx => step_sink_fail h hx⟩
  have hwrite : ∀ {x : SinkTxn} {p : EPhase}, s.outstanding = some x → s.phaseAfter = p → s.ephase ≠ .flush →
      step s = .next { s with turns := ts, sink := as, sinkLog := s.sinkLog ++ [⟨x, .ok⟩], ephase := p } :=
    fun hx hp hf => hp ▸ step_write_ok h hx hf
  refine ⟨fun he => ?_, fun he => ?_, fun he => ?_, fun p he hp => ?_, fun he => step_flush_ok h he⟩
  · exact hwrite (by rw [State.outstanding, he]) (by rw [State.phaseAfter, he]) (by rw [he]; decide)
  · exact hwrite (by rw [State.outstanding, he]; rfl) (by rw [State.phaseAfter, he]) (by rw [he]; decide)
  · exact hwrite (State.outstanding_of_w3 he) (by rw [State.phaseAfter, he]) (by rw [he]; decide)
  · exact hwrite (by rw [State.outstanding, he, hp]; rfl) (by rw [State.phaseAfter, he]) (by rw [he]; decide)

/-- Settles O16: under the invariant a transaction is outstanding, so the sink's turn goes on for either answer. -/
theorem sinkAnswersAreFree : Obligations.SinkAnswersAreFree := by
  intro s ts hs hturn he
  obtain ⟨hc, ht⟩ := hturn
  obtain ⟨_, _, _, hsend, _⟩ := hs
  obtain ⟨x, hx⟩ := State.exists_outstanding hsend he
  refine ⟨fun as => ?_, fun k as => ?_, step_sink_waits ⟨hc, ht⟩ hx rfl⟩
  · have hstep : step { s with sink := .ok :: as } = _ := step_sink hc ht hx rfl
    obtain ⟨_, _, _, hframe⟩ := sinkAnswers_frame x .ok { s with turns := ts, sink := as }
    exact ⟨_, hstep, by rw [hframe]⟩
  · exact ⟨_, step_sink_fail ⟨⟨hc, ht⟩, rfl⟩ hx, rfl, rfl, rfl⟩

/-- Settles O17: the six steps log the transactions of R146, which add the frame to the sink stream. -/
theorem sendWritesTheEncodedMessage : Obligations.SendWritesTheEncodedMessage := by
  intro s m ms ts as hturn hm hl hr hsink
  refine ⟨_, runFor_send_ok hturn hm hl hr hsink, rfl, ?_⟩
  rw [sinkStream_append, sinkStream_acceptedLog]

/-- Settles O19: the failure leaves its trace in CODE and the sink log, which SEND does not read. -/
theorem failedSendIsNotSticky : Obligations.FailedSendIsNotSticky := by
  intro s t u k as ts he h e eu
  obtain ⟨x, hx, rfl⟩ := step_sink_next h he e
  have hnext := execSend_withHistory .ioFailure (s.sinkLog ++ [⟨x, .fail k⟩]) rfl eu
  exact hnext

/-- Settles O23: the host has no step, and no other agent but reset touches the TX registers or TXMEM. -/
theorem sendInFlightKeepsItsMessage : Obligations.SendInFlightKeepsItsMessage :=
  fun _ _ he e hreset => (step_next e).2.keeps_message he hreset

/-- Settles O25: an entry adds to the stream what the sink accepted of it. -/
theorem sinkStreamOfTheLog : Obligations.SinkStreamOfTheLog := by
  refine ⟨fun log bs => sinkStream_concat log _, fun log bs k hk => ?_, fun log r => ?_⟩
  · exact ⟨bs.take k, List.take_prefix k bs, List.length_take_of_le hk, sinkStream_concat log _⟩
  · exact (sinkStream_concat log _).trans (List.append_nil _)

end Proofs

end Sys2Proof

namespace Sys2Proof

namespace Machine

open Sys2Proof.Claims

/-! ## The RX registers describe the held frame (R38 to R41) -/

/-- What the RX registers show of a held frame, delivered or failed. -/
def State.RxRegs (s : State) : Prop := s.deliveredRegs ∧ s.errorClear

theorem State.rxRegs_of_idle {s : State} (hd : s.dstate = .idle) : s.RxRegs :=
  ⟨fun h => (nomatch hd.symm.trans h), fun h => nomatch hd.symm.trans h⟩

theorem State.rxRegs_of_errHeld {s : State} (hd : s.dstate = .errHeld) (hp : s.rxPixcnt = 0#16)
    (hi : s.rxSysid = 0#16) (hl : s.rxDlen = 0#16) : s.RxRegs :=
  ⟨fun h => (nomatch hd.symm.trans h), fun _ => ⟨hp, hi, hl⟩⟩

theorem State.rxRegs_of_pixels {s : State} (hd : s.dstate = .delivering) (ht : hdrTag s.rxHdr = tagSpc)
    (hp : s.rxPixcnt = BitVec.ofNat 16 (hdrPayload s.rxHdr / 3)) (hi : s.rxSysid = 0#16) (hl : s.rxDlen = 0#16) :
    s.RxRegs :=
  ⟨fun _ => ⟨fun _ => ⟨hp, hi, hl⟩, fun h => (nomatch ht.symm.trans h)⟩, fun h => nomatch hd.symm.trans h⟩

theorem State.rxRegs_of_sysex {s : State} (hd : s.dstate = .delivering) (ht : hdrTag s.rxHdr = tagSysex)
    (hp : s.rxPixcnt = 0#16) (hl : s.rxDlen = BitVec.ofNat 16 (hdrPayload s.rxHdr - 2))
    (h4 : s.rxByte 4 = some (hiByte s.rxSysid)) (h5 : s.rxByte 5 = some (loByte s.rxSysid)) : s.RxRegs :=
  ⟨fun _ => ⟨fun h => (nomatch ht.symm.trans h), fun _ => ⟨hp, hl, h4, h5⟩⟩, fun h => nomatch hd.symm.trans h⟩

theorem RecvCase.rxRegs {s t : State} (h : RecvCase s t) (hs : s.RxRegs) : t.RxRegs := by
  cases h with
  | refused => exact hs
  | inputError | noHeader | noPayload => exact State.rxRegs_of_idle rfl
  | malformed | unrecognized => exact State.rxRegs_of_errHeld rfl rfl rfl rfl
  | pixels _ _ _ _ _ ht => exact State.rxRegs_of_pixels rfl ht rfl rfl rfl
  | sysex _ _ _ _ _ ht _ a b ha hb =>
    refine State.rxRegs_of_sysex rfl ht rfl rfl ?_ ?_
    · exact ha.trans (congrArg some (hiByte_append a b).symm)
    · exact hb.trans (congrArg some (loByte_append a b).symm)

theorem exec_rxRegs {i : Instr} {s t : State} (hi : i.space = .cmd) (e : exec i s = .next t) (hs : s.RxRegs) :
    t.RxRegs := by
  rcases exec_next_cases hi e with ⟨_, h⟩ | ⟨_, h, _⟩ | ⟨_, _, _, rfl⟩
  · exact h.rxRegs hs
  · rcases release_next h with ⟨_, _, rfl⟩ | ⟨_, rfl⟩
    · exact State.rxRegs_of_idle rfl
    · exact hs
  · exact hs

/-- A byte of RXBUF stays where it is when another joins at the tail. -/
theorem State.rxByte_append {s : State} {i : Nat} {b : Byte} (c : Byte) (h : s.rxByte i = some b) :
    (s.append c).rxByte i = some b := by
  have hlt : i < s.rxbuf.length := (List.getElem?_eq_some_iff.1 h).1
  exact (List.getElem?_append_left hlt).trans h

theorem State.append_rxRegs {s : State} (b : Byte) (hs : s.RxRegs) : (s.append b).RxRegs := by
  obtain ⟨hdel, herr⟩ := hs
  refine ⟨fun hd => ?_, herr⟩
  obtain ⟨hpix, hsysex⟩ := hdel hd
  refine ⟨hpix, fun ht => ?_⟩
  obtain ⟨hp, hl, h4, h5⟩ := hsysex ht
  exact ⟨hp, hl, State.rxByte_append b h4, State.rxByte_append b h5⟩

theorem StepCase.rxRegs {s t : State} (h : StepCase s t) (hs : s.RxRegs) : t.RxRegs := by
  cases h with
  | command w i ms ts t _ _ _ hd hx => exact exec_rxRegs (decodeCmd_space hd) hx hs
  | push b => exact State.append_rxRegs b hs
  | reset k ts => exact State.rxRegs_of_idle (resetTurn_dstate k _)
  | store _ _ v r => rw [State.csrStore_frame]; exact hs
  | sink x a as ts =>
    obtain ⟨_, _, _, e⟩ := sinkAnswers_frame x a { s with turns := ts, sink := as }
    rw [e]
    exact hs
  | quiet | passed | illegal | load | txw | inputError => exact hs

/-! ## A SEND in flight has passed its checks (R146, R148) -/

theorem State.sendReady_of_idle {s : State} (he : s.ephase = .idle) : s.sendReady :=
  ⟨fun h => (h he).elim, fun h => nomatch he.symm.trans h⟩

/-- Only a SEND that passes its checks leaves EPHASE IDLE. -/
theorem exec_sendReady {i : Instr} {s t : State} (hi : i.space = .cmd) (e : exec i s = .next t)
    (he : s.ephase = .idle) : t.sendReady := by
  cases i with
  | send =>
    rcases execSend_cases s with ⟨_, e'⟩ | ⟨_, _, e'⟩ | ⟨hl, hr, p, hp, e'⟩ | ⟨_, _, _, e'⟩ <;> cases e'.symm.trans e
    · exact State.sendReady_of_idle he
    · exact State.sendReady_of_idle he
    · exact ⟨fun _ => ⟨hl, hr, Option.isSome_of_eq_some hp⟩, nofun⟩
  | recv =>
    refine State.sendReady_of_idle ?_
    rw [(execRecv_next e).frame]
    exact he
  | done | skip => rcases release_next e with ⟨_, _, rfl⟩ | ⟨_, rfl⟩ <;> exact State.sendReady_of_idle he
  | rdpix | rddata =>
    obtain ⟨_, _, rfl⟩ := readItem_next e
    exact State.sendReady_of_idle he
  | length | isvalid | isbcast =>
    obtain ⟨_, _, rfl⟩ := query_next e
    exact State.sendReady_of_idle he
  | frameSetPixelColors | frameSystemExclusive => cases hi

/-- W4 follows W3 alone, and only for a payload that is not empty (R148). -/
theorem State.txLength_ne_zero_of_phaseAfter {s : State} (h : s.phaseAfter = .w4) : s.txLength ≠ 0 := by
  intro hl
  cases he : s.ephase with
  | w3 =>
    simp only [State.phaseAfter, he, hl, if_true] at h
    cases h
  | idle | w1 | w2 | w4 | flush =>
    rw [State.phaseAfter, he] at h
    cases h

/-- A sink answer keeps the message of the SEND in flight, or ends the SEND. -/
theorem sinkAnswers_sendReady {s : State} (x : SinkTxn) (a : SinkAnswer) (he : s.ephase ≠ .idle) (hs : s.sendReady) :
    (sinkAnswers x a s).sendReady := by
  obtain ⟨hready, _⟩ := hs
  rcases sinkAnswers_cases x a s with ⟨_, _, e⟩ | ⟨_, _, e⟩ | ⟨_, _, e⟩ <;> rw [e]
  · exact ⟨fun _ => hready he, fun h => State.txLength_ne_zero_of_phaseAfter (s := s) h⟩
  · exact State.sendReady_of_idle rfl
  · exact State.sendReady_of_idle rfl

theorem StepCase.sendReady {s t : State} (h : StepCase s t) (hs : s.sendReady) : t.sendReady := by
  cases h with
  | command w i ms ts t _ he _ hd hx => exact exec_sendReady (decodeCmd_space hd) hx he
  | sink x a as ts _ he => exact sinkAnswers_sendReady x a he hs
  | store _ _ v r _ _ _ he =>
    rw [State.csrStore_frame]
    exact State.sendReady_of_idle he
  | txw _ _ _ _ _ he => exact State.sendReady_of_idle he
  | reset k ts =>
    obtain ⟨_, _, e⟩ := resetTurn_eq k { s with turns := ts }
    rw [e]
    exact State.sendReady_of_idle rfl
  | quiet | passed | illegal | load | push | inputError => exact hs

/-! ## TXMEM and the configuration -/

/-- No command changes TXMEM or the configuration. -/
theorem exec_txmem_cfg {i : Instr} {s t : State} (hi : i.space = .cmd) (e : exec i s = .next t) :
    t.txmem = s.txmem ∧ t.cfg = s.cfg := by
  rcases exec_next_cases hi e with ⟨_, h⟩ | ⟨_, h, _⟩ | ⟨_, _, _, rfl⟩
  · rw [h.frame]
    exact ⟨rfl, rfl⟩
  · rcases release_next h with ⟨_, _, rfl⟩ | ⟨_, rfl⟩ <;> exact ⟨rfl, rfl⟩
  · exact ⟨rfl, rfl⟩

/-- No step changes the configuration, and only a host write within TXMEM_SIZE changes TXMEM. -/
theorem StepCase.txmem_cfg {s t : State} (h : StepCase s t) :
    t.cfg = s.cfg ∧ (t.txmem = s.txmem ∨ ∃ addr bytes,
      (bytes.length = 0 ∨ addr + bytes.length ≤ s.cfg.txmemSize) ∧ t.txmem = s.txmem.writeBytes addr bytes) := by
  cases h with
  | command w i ms ts t _ _ _ hd hx =>
    obtain ⟨hmem, hcfg⟩ := exec_txmem_cfg (decodeCmd_space hd) hx
    exact ⟨hcfg, .inl hmem⟩
  | txw addr bytes _ _ _ _ _ hl => exact ⟨rfl, .inr ⟨addr, bytes, hl, rfl⟩⟩
  | store _ _ v r =>
    rw [State.csrStore_frame]
    exact ⟨rfl, .inl rfl⟩
  | sink x a as ts =>
    obtain ⟨_, _, _, e⟩ := sinkAnswers_frame x a { s with turns := ts, sink := as }
    rw [e]
    exact ⟨rfl, .inl rfl⟩
  | reset k ts =>
    obtain ⟨_, _, e⟩ := resetTurn_eq k { s with turns := ts }
    rw [e]
    exact ⟨rfl, .inl rfl⟩
  | quiet | passed | illegal | load | push | inputError => exact ⟨rfl, .inl rfl⟩

theorem StepCase.txmemOk {s t : State} (h : StepCase s t) (hs : s.txmemOk) : t.txmemOk := by
  obtain ⟨hwf, hbelow⟩ := hs
  obtain ⟨hcfg, hmem | ⟨addr, bytes, hl, hmem⟩⟩ := h.txmem_cfg <;> rw [State.txmemOk, hcfg, hmem]
  · exact ⟨hwf, hbelow⟩
  · exact ⟨Memory.wf_writeBytes bytes _ _ hwf, Memory.below_writeBytes bytes _ _ _ hbelow hl⟩

/-- Each way a step ends in a next state keeps the whole invariant. -/
theorem StepCase.inv {s t : State} (h : StepCase s t) (hs : s.Inv) : t.Inv := by
  obtain ⟨hr50, hdel, herr, hsend, hmem⟩ := hs
  obtain ⟨hdel', herr'⟩ := h.rxRegs ⟨hdel, herr⟩
  exact ⟨h.r50 hr50, hdel', herr', h.sendReady hsend, h.txmemOk hmem⟩

/-! ## Why a command or an access faults (R233) -/

/-- A command faults where SEND meets an unwritten byte, or, outside the invariant, where a byte it needs is not
buffered. -/
theorem exec_fault {i : Instr} {s : State} {f : Fault} (hi : i.space = .cmd) (e : exec i s = .fault f) :
    (f = .uninitTxmem ∧ i = .send ∧ s.txPayload = none) ∨ (f = .invariant ∧ ¬ s.Inv) := by
  cases i with
  | recv =>
    obtain ⟨t, e'⟩ := execRecv_isNext s
    cases e'.symm.trans e
  | done | skip =>
    rcases release_cases _ s with ⟨_, _, e'⟩ | ⟨_, e'⟩ | ⟨hd, hl, e'⟩ <;> cases e'.symm.trans e
    refine .inr ⟨rfl, fun hs => ?_⟩
    obtain ⟨hr50, _⟩ := hs
    exact Nat.not_lt.2 (State.frameLen_le_of_r50 hr50 (by rw [hd]; decide)) hl
  | rdpix k =>
    rcases readItem_cases k _ (s.pixelWord k) s with ⟨_, e'⟩ | ⟨_, _, e'⟩ | ⟨_, _, _, _, e'⟩ | ⟨hd, hk, hn, e'⟩ <;>
      cases e'.symm.trans e
    refine .inr ⟨rfl, fun hs => ?_⟩
    exact Nat.not_lt.2 (State.pixelWord_eq_none.1 hn) ((State.items_buffered_of_inv hs hd k).1 hk)
  | rddata k =>
    rcases readItem_cases k _ (s.dataWord k) s with ⟨_, e'⟩ | ⟨_, _, e'⟩ | ⟨_, _, _, _, e'⟩ | ⟨hd, hk, hn, e'⟩ <;>
      cases e'.symm.trans e
    refine .inr ⟨rfl, fun hs => ?_⟩
    exact Nat.not_lt.2 (State.dataWord_eq_none.1 hn) ((State.items_buffered_of_inv hs hd k).2 hk)
  | send =>
    rcases execSend_cases s with ⟨_, e'⟩ | ⟨_, _, e'⟩ | ⟨_, _, _, _, e'⟩ | ⟨_, _, hp, e'⟩ <;> cases e'.symm.trans e
    exact .inl ⟨rfl, rfl, hp⟩
  | length | isvalid | isbcast => rcases query_cases _ _ s with ⟨_, _, e'⟩ | ⟨_, e'⟩ <;> cases e'.symm.trans e
  | frameSetPixelColors | frameSystemExclusive => cases hi

/-- An access is a bus error iff it is not admitted (R62). -/
theorem csrAccess_eq_none {cfg : Config} {bits addr : Nat} :
    csrAccess cfg bits addr = none ↔ ¬ Admitted cfg bits addr := by
  unfold csrAccess
  split
  · rename_i h
    rw [csrAt_eq_none, Admitted]
    simp only [h, true_and]
  · rename_i h
    exact ⟨fun _ ⟨hb, ha, _⟩ => h ⟨hb, ha⟩, fun _ => rfl⟩

/-- SEND has one word (R98). -/
theorem decodeCmd_eq_send {w : Word} (h : decodeCmd w = .ok .send) : w = 0x00000008#32 :=
  eq_encode_of_decodeCmd rfl h

end Machine

namespace Proofs

open Sys2Proof.Machine Sys2Proof.Claims

/-- Settles O41: each way a step ends in a next state keeps R50, what the RX registers show, the checks a SEND in flight
has passed, and TXMEM. -/
theorem invariantKept : Obligations.InvariantKept := fun _ _ hs e => (step_next e).2.inv hs

/-- Settles O42: nothing is buffered, held, in flight or written. -/
theorem invariantAtReset : Obligations.InvariantAtReset :=
  ⟨State.r50_of_idle (Nat.zero_le _) rfl rfl rfl rfl, nofun, nofun, State.sendReady_of_idle rfl,
    State.reset_txmem_wf, nofun⟩

/-- Settles O43: the step that faults is the host's; under the invariant a command has its bytes buffered, and a SEND in
flight its payload written. -/
theorem faultsHaveTheirCause : Obligations.FaultsHaveTheirCause := by
  intro s f hs e
  obtain ⟨hc, hfault⟩ := step_fault e
  cases hfault with
  | command w i ms ts _ ht he hm hd hx =>
    refine ⟨ms, ts, _, ⟨⟨hc, ht⟩, he, hm⟩, .inr (.inl ?_)⟩
    rcases exec_fault (decodeCmd_space hd) hx with ⟨rfl, rfl, hp⟩ | ⟨_, hinv⟩
    · obtain rfl := decodeCmd_eq_send hd
      obtain ⟨j, hj, hread⟩ := State.txPayload_eq_none.1 hp
      exact ⟨rfl, rfl, _, Nat.le_add_right _ j, Nat.add_lt_add_left hj _, hread⟩
    · exact (hinv hs).elim
  | write bits addr v ms ts ht he hm ha =>
    exact ⟨ms, ts, _, ⟨⟨hc, ht⟩, he, hm⟩, .inl ⟨rfl, bits, addr, csrAccess_eq_none.1 ha, .inr ⟨v, rfl⟩⟩⟩
  | read bits addr ms ts ht he hm ha =>
    exact ⟨ms, ts, _, ⟨⟨hc, ht⟩, he, hm⟩, .inl ⟨rfl, bits, addr, csrAccess_eq_none.1 ha, .inl rfl⟩⟩
  | txw addr bytes ms ts ht he hm hl =>
    exact ⟨ms, ts, _, ⟨⟨hc, ht⟩, he, hm⟩, .inr (.inr ⟨rfl, addr, bytes, rfl, hl⟩)⟩
  | sink ts _ he hp =>
    obtain ⟨_, _, _, ⟨hready, _⟩, _⟩ := hs
    obtain ⟨_, _, hpay⟩ := hready (by rw [he]; decide)
    rw [hp] at hpay
    cases hpay

end Proofs

end Sys2Proof

namespace Sys2Proof

namespace Machine

open Sys2Proof.Claims

/-! ## CODE and RESULT, command by command (R36, R220) -/

/-- A read ends in BAD_STATE or BAD_INDEX, or answers. -/
theorem readItem_outcome {i count : Nat} {item : Option Word} {s t : State} (e : readItem i count item s = .next t) :
    t = s.finish .badState ∨ t = s.finish .badIndex ∨ ∃ v, t = s.answer v := by
  rcases readItem_cases i count item s with ⟨_, e'⟩ | ⟨_, _, e'⟩ | ⟨_, _, v, _, e'⟩ | ⟨_, _, _, e'⟩ <;>
    cases e'.symm.trans e
  · exact .inl rfl
  · exact .inr (.inl rfl)
  · exact .inr (.inr ⟨v, rfl⟩)

/-- A query answers, or ends in BAD_STATE where its message is not there. -/
theorem query_outcome {α : Type} {selected : Option α} {f : α → Word} {s t : State}
    (e : query selected f s = .next t) : (t = s.finish .badState ∧ selected = none) ∨ ∃ v, t = s.answer v := by
  rcases query_cases selected f s with ⟨v, _, e'⟩ | ⟨hn, e'⟩ <;> cases e'.symm.trans e
  · exact .inr ⟨_, rfl⟩
  · exact .inl ⟨rfl, hn⟩

/-- A command that returns a value answers with OK, or ends in another code and leaves RESULT. -/
theorem exec_returnsValue {i : Instr} {s t : State} (hv : returnsValue i = true) (e : exec i s = .next t) :
    (∃ c, c ≠ .ok ∧ t = s.finish c) ∨ ∃ v, t = s.answer v := by
  cases i with
  | rdpix | rddata =>
    rcases readItem_outcome e with rfl | rfl | h
    · exact .inl ⟨.badState, nofun, rfl⟩
    · exact .inl ⟨.badIndex, nofun, rfl⟩
    · exact .inr h
  | length | isvalid | isbcast =>
    rcases query_outcome e with ⟨rfl, _⟩ | h
    · exact .inl ⟨.badState, nofun, rfl⟩
    · exact .inr h
  | recv | done | skip | send | frameSetPixelColors | frameSystemExclusive => cases hv

/-- The other commands leave RESULT. -/
theorem exec_result_of_no_value {i : Instr} {s t : State} (hi : i.space = .cmd) (hv : returnsValue i = false)
    (e : exec i s = .next t) : t.result = s.result := by
  cases i with
  | recv => rw [(execRecv_next e).frame]
  | done | skip => rcases release_next e with ⟨_, _, rfl⟩ | ⟨_, rfl⟩ <;> rfl
  | send =>
    obtain ⟨_, _, rfl⟩ := execSend_next e
    rfl
  | rdpix | rddata | length | isvalid | isbcast => cases hv
  | frameSetPixelColors | frameSystemExclusive => cases hi

/-- A command that changes RESULT is one that returns a value, and ends OK (R36). -/
theorem exec_changes_result {i : Instr} {s t : State} (hi : i.space = .cmd) (e : exec i s = .next t)
    (hne : t.result ≠ s.result) : returnsValue i = true ∧ t.code = .ok := by
  cases hv : returnsValue i with
  | false => exact (hne (exec_result_of_no_value hi hv e)).elim
  | true =>
    rcases exec_returnsValue hv e with ⟨_, _, rfl⟩ | ⟨_, rfl⟩
    · exact (hne rfl).elim
    · exact ⟨rfl, rfl⟩

/-- A query ends OK, or in BAD_STATE where its message is not there. -/
theorem query_code {α : Type} {selected : Option α} {f : α → Word} {s t : State} (e : query selected f s = .next t) :
    t.code = .ok ∨ (t.code = .badState ∧ selected = none) := by
  rcases query_outcome e with ⟨rfl, hn⟩ | ⟨_, rfl⟩
  · exact .inr ⟨rfl, hn⟩
  · exact .inl rfl

/-- Each command ends with a code R220 lists for it, or is a SEND that starts. -/
theorem exec_code {i : Instr} {s t : State} (e : exec i s = .next t) :
    t.code ∈ codesOf i ∨ (i = .send ∧ t.code = s.code ∧ t.ephase = .w1) := by
  cases i with
  | recv =>
    left
    cases execRecv_next e <;> simp
  | done | skip =>
    left
    rcases release_next e with ⟨_, _, rfl⟩ | ⟨_, rfl⟩ <;> simp
  | rdpix | rddata =>
    left
    rcases readItem_outcome e with rfl | rfl | ⟨_, rfl⟩ <;> simp
  | send =>
    rcases execSend_cases s with ⟨_, e'⟩ | ⟨_, _, e'⟩ | ⟨_, _, _, _, e'⟩ | ⟨_, _, _, e'⟩ <;> cases e'.symm.trans e
    · exact .inl (by simp)
    · exact .inl (by simp)
    · exact .inr ⟨rfl, rfl, rfl⟩
  | length sel | isvalid sel | isbcast sel =>
    left
    rcases query_code e with h | ⟨h, hn⟩ <;> rw [h] <;> cases sel
    · simp
    · simp
    · cases hn
    · simp
  | frameSetPixelColors =>
    left
    rcases receive_withHeader_next e with rfl | rfl | rfl | e
    case inr.inr.inr =>
      cases e
      simp
    all_goals simp
  | frameSystemExclusive =>
    left
    rcases receive_withHeader_next e with rfl | rfl | rfl | e
    case inr.inr.inr => rcases parseSysex_next e with rfl | ⟨_, _, rfl⟩ <;> simp
    all_goals simp

/-- Only the flush is followed by IDLE. -/
theorem State.phaseAfter_ne_idle {s : State} (he : s.ephase ≠ .idle) (hf : s.ephase ≠ .flush) :
    s.phaseAfter ≠ .idle := by
  cases h : s.ephase with
  | idle => exact (he h).elim
  | flush => exact (hf h).elim
  | w3 =>
    simp only [State.phaseAfter, h]
    split <;> exact nofun
  | w1 | w2 | w4 =>
    rw [State.phaseAfter, h]
    exact nofun

/-! ## Which steps change RESULT and CODE -/

theorem StepCase.result {s t : State} (h : StepCase s t) (hne : t.result ≠ s.result) :
    (∃ k ts, s.turns = .reset k :: ts ∧ t.result = 0#32) ∨
    ∃ w i ms ts, s.turns = .host :: ts ∧ s.ephase = .idle ∧
      s.host = .write 32 (s.cfg.csrBase + 0x0C) w :: ms ∧ decodeCmd w = .ok i ∧ returnsValue i = true ∧
      t.code = .ok := by
  cases h with
  | command w i ms ts _ ht he hm hd hx =>
    obtain ⟨hv, hok⟩ := exec_changes_result (decodeCmd_space hd) hx hne
    exact .inr ⟨w, i, ms, ts, ht, he, hm, hd, hv, hok⟩
  | reset k ts ht =>
    obtain ⟨_, _, e⟩ := resetTurn_eq k { s with turns := ts }
    exact .inl ⟨k, ts, ht, by rw [e]; rfl⟩
  | store _ _ v r =>
    rw [State.csrStore_frame] at hne
    exact (hne rfl).elim
  | sink x a as ts =>
    obtain ⟨_, _, _, e⟩ := sinkAnswers_frame x a { s with turns := ts, sink := as }
    rw [e] at hne
    exact (hne rfl).elim
  | quiet | passed | illegal | load | txw | push | inputError => exact (hne rfl).elim

theorem StepCase.code {s t : State} (h : StepCase s t) (hne : t.code ≠ s.code) :
    (∃ w ms ts, s.turns = .host :: ts ∧ s.ephase = .idle ∧ s.host = .write 32 (s.cfg.csrBase + 0x0C) w :: ms) ∨
    (s.ephase ≠ .idle ∧ t.ephase = .idle ∧ ∃ a as ts, s.turns = .sink :: ts ∧ s.sink = a :: as) ∨
    ∃ k ts, s.turns = .reset k :: ts := by
  cases h with
  | command w _ ms ts _ ht he hm => exact .inl ⟨w, ms, ts, ht, he, hm⟩
  | illegal w _ ms ts ht he hm => exact .inl ⟨w, ms, ts, ht, he, hm⟩
  | reset k ts ht => exact .inr (.inr ⟨k, ts, ht⟩)
  | sink x a as ts ht he _ hm =>
    refine .inr (.inl ⟨he, ?_, a, as, ts, ht, hm⟩)
    rcases sinkAnswers_cases x a { s with turns := ts, sink := as } with ⟨_, _, e⟩ | ⟨_, _, e⟩ | ⟨_, _, e⟩
    · rw [e] at hne
      exact (hne rfl).elim
    · rw [e]
      rfl
    · rw [e]
      rfl
  | store _ _ v r =>
    rw [State.csrStore_frame] at hne
    exact (hne rfl).elim
  | quiet | passed | load | txw | push | inputError => exact (hne rfl).elim

/-! ## Refused configurations (R235) -/

theorem configRefusal_eq_none {c : Config} :
    configRefusal c = none ↔
      ¬ (c.bufCap < 65539 ∨ 1 < c.hosts ∨ 2 ^ 32 - 1 < c.bufCap ∨ 2 ^ 32 < c.txmemSize) := by
  unfold configRefusal
  split_ifs with hcap hhosts hbounds
  · exact iff_of_false nofun (not_not.2 (.inl hcap))
  · exact iff_of_false nofun (not_not.2 (.inr (.inl hhosts)))
  · exact iff_of_false nofun (not_not.2 (.inr (.inr hbounds)))
  · exact iff_of_true rfl (by omega)

/-- No command is refused. -/
theorem exec_ne_refused {i : Instr} (hi : i.space = .cmd) (s : State) (r : Refusal) : exec i s ≠ .refused r := by
  intro e
  cases i with
  | recv =>
    obtain ⟨_, e'⟩ := execRecv_isNext s
    cases e'.symm.trans e
  | done | skip => rcases release_cases _ s with ⟨_, _, e'⟩ | ⟨_, e'⟩ | ⟨_, _, e'⟩ <;> cases e'.symm.trans e
  | rdpix | rddata =>
    rcases readItem_cases _ _ _ s with ⟨_, e'⟩ | ⟨_, _, e'⟩ | ⟨_, _, _, _, e'⟩ | ⟨_, _, _, e'⟩ <;>
      cases e'.symm.trans e
  | send =>
    rcases execSend_cases s with ⟨_, e'⟩ | ⟨_, _, e'⟩ | ⟨_, _, _, _, e'⟩ | ⟨_, _, _, e'⟩ <;> cases e'.symm.trans e
  | length | isvalid | isbcast => rcases query_cases _ _ s with ⟨_, _, e'⟩ | ⟨_, e'⟩ <;> cases e'.symm.trans e
  | frameSetPixelColors | frameSystemExclusive => cases hi

/-- A step is refused for its configuration alone. -/
theorem step_refused {s : State} {r : Refusal} (e : step s = .refused r) : configRefusal s.cfg = some r := by
  unfold step at e
  split at e
  · rename_i r' hc
    cases e
    exact hc
  exfalso
  unfold nextTurn at e
  split at e
  · cases e
  rename_i u ts _
  cases u with
  | host =>
    simp only [takeTurn, hostTurn] at e
    split at e
    case isFalse => cases e
    split at e
    · cases e
    rename_i m ms _
    cases m with
    | write bits addr v =>
      simp only [hostMove, hostWrite] at e
      split at e
      · cases e
      · unfold issue at e
        split at e
        · rename_i i hd
          exact exec_ne_refused (decodeCmd_space hd) _ r e
        · cases e
      · cases e
    | read bits addr =>
      simp only [hostMove, hostRead] at e
      split at e <;> cases e
    | txw addr bytes =>
      simp only [hostMove, hostTxw] at e
      split at e <;> cases e
  | source => cases e
  | sink =>
    simp only [takeTurn, sinkTurn] at e
    split at e
    · cases e
    split at e
    · cases e
    split at e <;> cases e
  | reset k => cases e

/-! ## The host's and the source's turns -/

/-- A legal word written to CMD runs its command (R30). -/
theorem issue_of_legal {w : Word} {i : Instr} (h : decodeCmd w = .ok i) (s : State) : issue w s = exec i s := by
  simp only [issue, h]

/-- While a SEND is in flight the host's turn passes (R70, R234). -/
theorem step_host_held {s : State} {ts : List Turn} (h : TurnOf s .host ts) (he : s.ephase ≠ .idle) :
    step s = .next { s with turns := ts } := by
  obtain ⟨hc, ht⟩ := h
  simp [step, hc, nextTurn, ht, takeTurn, hostTurn, he]

/-- While RXBUF is full the turn of a source with a byte to push passes (R79, R234). -/
theorem step_push_held {s : State} {b : Byte} {mvs : List SourceMove} {ts : List Turn} (h : TurnOf s .source ts)
    (hm : s.source = .push b :: mvs) (hl : ¬ s.rxCount < s.cfg.bufCap) : step s = .next { s with turns := ts } := by
  obtain ⟨hc, ht⟩ := h
  simp only [step, hc, nextTurn, ht, takeTurn, sourceTurn, hm, if_neg hl]

/-- A CSR write that is admitted is not a bus error. -/
theorem hostWrite_ne_busError {s : State} {bits addr : Nat} (v : Word) (h : Admitted s.cfg bits addr) :
    hostWrite bits addr v s ≠ .fault .busError := by
  intro e
  unfold hostWrite at e
  split at e
  · rename_i ha
    exact csrAccess_eq_none.1 ha h
  · unfold issue at e
    split at e
    · rename_i i hd
      rcases exec_fault (decodeCmd_space hd) e with ⟨hf, _⟩ | ⟨hf, _⟩ <;> cases hf
    · cases e
  · cases e

/-- A CSR read that is admitted completes. -/
theorem hostRead_isNext {s : State} {bits addr : Nat} (h : Admitted s.cfg bits addr) :
    ∃ t, hostRead bits addr s = .next t := by
  unfold hostRead
  split
  · rename_i ha
    exact (csrAccess_eq_none.1 ha h).elim
  · exact ⟨_, rfl⟩

/-- A host write within TXMEM_SIZE stores its bytes. -/
theorem step_txw {s : State} {addr : Nat} {bytes : List Byte} {ms : List HostMove} {ts : List Turn}
    (h : HostDoes s (.txw addr bytes) ms ts) (hl : addr + bytes.length ≤ s.cfg.txmemSize) :
    step s = .next { s with turns := ts, host := ms, txmem := s.txmem.writeBytes addr bytes } := by
  obtain ⟨⟨hc, ht⟩, he, hm⟩ := h
  rw [step_host hc ht he hm]
  exact if_pos (.inr hl)

end Machine

namespace Proofs

open Sys2Proof.Machine Sys2Proof.Claims

/-- Settles O39: a read or a query answers, or finishes with another code. -/
theorem readAndQueryFrame : Obligations.ReadAndQueryFrame := by
  intro i s t hv e
  rcases exec_returnsValue hv e with ⟨c, _, rfl⟩ | ⟨v, rfl⟩
  · exact ⟨rfl, fun _ => rfl, surroundingsKept_withRecvOf s (s.finish c)⟩
  · refine ⟨rfl, fun hn => (hn rfl).elim, ?_⟩
    exact ⟨fun _ => rfl, rfl, rfl, rfl, rfl, rfl, rfl, rfl, rfl, rfl, rfl, rfl, rfl, rfl⟩

/-- Settles O44: a step is refused iff `configRefusal` gives a reason, and no way a step ends changes the
configuration. -/
theorem onlyBadConfigurationsRefused : Obligations.OnlyBadConfigurationsRefused := by
  refine ⟨fun s => ?_, fun s t e => ?_⟩
  · rw [← not_iff_not, ← configRefusal_eq_none]
    constructor
    · intro h
      refine Option.eq_none_iff_forall_not_mem.2 fun r hr => h ⟨r, ?_⟩
      have hr : configRefusal s.cfg = some r := hr
      simp only [step, hr]
    · rintro hc ⟨r, e⟩
      cases hc.symm.trans (step_refused e)
  · obtain ⟨_, h⟩ := step_next e
    obtain ⟨hcfg, _⟩ := h.txmem_cfg
    exact hcfg

/-- Settles O46: the reset turn resets the block and logs the transaction it abandons, if there is one. -/
theorem resetStep : Obligations.ResetStep := by
  intro s k ts hturn
  obtain ⟨hc, ht⟩ := hturn
  obtain ⟨log, hlog, e⟩ := resetTurn_eq k { s with turns := ts }
  have habandoned : ∀ x, s.outstanding = some x → log = s.sinkLog ++ [⟨x, .abandoned k⟩] := by
    intro x hx
    rcases hlog with ⟨hnone, _⟩ | ⟨y, hy, hlog⟩
    · cases hx.symm.trans hnone
    · cases hx.symm.trans hy
      exact hlog
  refine ⟨_, (step_reset hc ht).trans (congrArg _ e), rfl, State.statusWord_reset, fun he => ?_, habandoned,
    fun bs hx => ?_⟩
  · have hidle : s.outstanding = none := by rw [State.outstanding, he]
    rcases hlog with ⟨_, hlog⟩ | ⟨x, hx, _⟩
    · exact hlog
    · cases hidle.symm.trans hx
  · exact (congrArg sinkStream (habandoned _ hx)).trans (sinkStream_concat s.sinkLog _)

/-- Settles O48: the step that changed RESULT is found by cases. -/
theorem resultOnlyFromReads : Obligations.ResultOnlyFromReads := by
  refine ⟨fun s t e hne => ?_, rfl⟩
  obtain ⟨hc, h⟩ := step_next e
  rcases h.result hne with h | ⟨w, i, ms, ts, ht, he, hm, h⟩
  · exact .inl h
  · exact .inr ⟨w, i, ms, ts, ⟨⟨hc, ht⟩, he, hm⟩, h⟩

/-- Settles O50: the step that changed CODE is found by cases. -/
theorem codeChangesOnlyAtCompletion : Obligations.CodeChangesOnlyAtCompletion := by
  intro s t e hne
  obtain ⟨hc, h⟩ := step_next e
  rcases h.code hne with ⟨w, ms, ts, ht, he, hm⟩ | ⟨he, he', a, as, ts, ht, hm⟩ | h
  · exact .inl ⟨w, ms, ts, ⟨hc, ht⟩, he, hm⟩
  · exact .inr (.inl ⟨he, he', a, as, ts, ⟨hc, ht⟩, hm⟩)
  · exact .inr (.inr h)

/-- Settles O51: the codes of each command, and of each sink answer. -/
theorem codesOfEachCommand : Obligations.CodesOfEachCommand := by
  refine ⟨fun _ _ _ e => exec_code e, fun s t a as ts h he e => ?_⟩
  obtain ⟨x, _, rfl⟩ := step_sink_next h he e
  rcases sinkAnswers_cases x a { s with turns := ts, sink := as } with ⟨_, hf, e⟩ | ⟨ha, hf, e⟩ | ⟨k, ha, e⟩ <;> rw [e]
  · exact .inl ⟨State.phaseAfter_ne_idle (s := s) he hf, rfl⟩
  · exact .inr (.inl ⟨rfl, rfl, hf, ha⟩)
  · exact .inr (.inr ⟨rfl, rfl, k, ha⟩)

/-- Settles O54: a push with room appends its byte, and one without is held. -/
theorem inputPush : Obligations.InputPush := by
  intro s b ms ts hturn hm
  refine ⟨fun hl => ⟨_, step_push hturn hm hl, rfl, List.length_append, ?_, fun j hj => ?_⟩,
    fun hl => step_push_held hturn hm hl⟩
  · exact List.getLast?_eq_getElem?.symm.trans List.getLast?_concat
  · exact List.getElem?_append_left hj

/-- Settles O55: an access finds a register iff it is admitted, and a command written to CMD raises no bus error. -/
theorem busErrors : Obligations.BusErrors := by
  refine fun s bits addr ms ts => ⟨fun ⟨⟨hc, ht⟩, he, hm⟩ => ?_, fun v ⟨⟨hc, ht⟩, he, hm⟩ => ?_⟩ <;>
    rw [step_host hc ht he hm] <;> refine ⟨fun hn => ?_, fun ha => ?_⟩
  · simp only [hostMove, hostRead, csrAccess_eq_none.2 hn]
  · exact hostRead_isNext ha
  · simp only [hostMove, hostWrite, csrAccess_eq_none.2 hn]
  · exact hostWrite_ne_busError v ha

/-- Settles O56: the table of readings is what a load of each register gives. -/
theorem csrReadValues : Obligations.CsrReadValues := by
  rintro s ⟨o, x⟩ ms ts hp ⟨⟨hc, ht⟩, he, hm⟩
  obtain ⟨r, rfl, rfl⟩ := mem_csrValues.1 hp
  exact step_load hc ht he hm

/-- Settles O59: what TXMEM reads after the write, and its canonical form. -/
theorem hostWritesTxmem : Obligations.HostWritesTxmem := by
  intro s addr bytes ms ts h hl
  refine ⟨_, step_txw h hl, rfl, fun j hj => ?_, fun a ha => ?_, fun ⟨hwf, hbelow⟩ => ?_⟩
  · rw [Memory.read_writeBytes, if_pos (by omega), Nat.add_sub_cancel_left]
  · rw [Memory.read_writeBytes, if_neg (by omega)]
  · exact ⟨Memory.wf_writeBytes bytes _ addr hwf, Memory.below_writeBytes bytes _ _ addr hbelow (.inr hl)⟩

/-- Settles O7: the write issues the word, and issuing a legal word is `exec`. -/
theorem stepRunsCommand : Obligations.StepRunsCommand :=
  fun _ _ _ _ _ h hd => (step_of_commandTurn h).trans (issue_of_legal hd _)

/-- Settles O22: the host's turn looks at EPHASE before the host's move. -/
theorem hostHeldDuringSend : Obligations.HostHeldDuringSend := fun _ _ h he => step_host_held h he

end Proofs

end Sys2Proof
